-- ==== Sys2Proof/Word.lean ====
section
/-! DEFINITION. The word types of the ZS-24: bytes, 48-bit times, sequence numbers, event keys and the
numbers that name stations, channels, inputs and slots (00, Conventions). -/

namespace Sys2Proof

/-- One byte, on the line or on the host port. -/
abbrev Byte := BitVec 8

/-- A 48-bit count of microseconds: station time ST, local count L, watermarks, bounds, timestamps. -/
abbrev Time := BitVec 48

/-- A 16-bit sequence number. -/
abbrev Seq := BitVec 16

/-- An 18-bit event key (R115). -/
abbrev Key := BitVec 18

/-- A station number, 0 to 31. -/
abbrev Station := Fin 32

/-- A channel, 0 to 31: event inputs 0 to 15, host events 16 to 31 (R10). -/
abbrev Channel := Fin 32

/-- An event input, 0 to 15 (R72). -/
abbrev InputNo := Fin 16

/-- A latch slot, 0 to 15 (R160). -/
abbrev SlotNo := Fin 16

end Sys2Proof
end

