-- ==== Sys2Proof/Syntax.lean ====
section
/-! DEFINITION. The commands of the ZS-24, one constructor per row of spec/opcode_table.json. -/

namespace Sys2Proof

/-- The two journal streams (R148). -/
inductive StreamId where
  | a
  | b
  deriving DecidableEq, Repr

/-- The RST input, as FULL_RESET finds it (R185, R186): held active, or released (and likewise at the end of
power-up) with chip select at the level given, true for active. -/
inductive ResetLine where
  | held
  | released (chipSelect : Bool)
  deriving DecidableEq, Repr

/-- A command: a host command with the parameter bytes of Table 1-11, or an event of the line, the clock,
the inputs, a timer or a reset. -/
inductive Instr where
  /-- FULL_RESET (R185): RST goes active, or is released. -/
  | fullReset (rst : ResetLine)
  /-- TRANSACTION_START (R165). -/
  | transactionStart
  /-- TRANSACTION_END (R167). -/
  | transactionEnd
  /-- READ_STREAM (R153): stream byte and maximum. -/
  | readStream (stream max : Byte)
  /-- READ_LATCH (R162): slot byte. -/
  | readLatch (slot : Byte)
  /-- READ_URGENT (R121). -/
  | readUrgent
  /-- READ_ROSTER (R67): station byte. -/
  | readRoster (station : Byte)
  /-- READ_CHANGES (R66). -/
  | readChanges
  /-- READ_CLOCK (R182). -/
  | readClock
  /-- READ_COUNTERS (R180): group byte. -/
  | readCounters (group : Byte)
  /-- CLEAR_COUNTERS (R181). -/
  | clearCounters
  /-- SETUP_WRITE (R172): item, index, 4-byte value. -/
  | setupWrite (item index : Byte) (value : BitVec 32)
  /-- SETUP_READ (R173): item, index. -/
  | setupRead (item index : Byte)
  /-- COMMIT (R174). -/
  | commit
  /-- SUBMIT (R76): channel, code, flags, value. -/
  | submit (channel code flags : Byte) (value : BitVec 16)
  /-- UNMUTE (R36). -/
  | unmute
  /-- LEAVE (R22). -/
  | leave
  /-- RESTART (R184). -/
  | restart
  /-- BAD_COMMAND (R168): the command byte, one that Table 1-11 does not list. -/
  | badCommand (byte : Byte)
  /-- FRAME_END (R13) of the frame with the bytes given and the framing-error mark given, as the receiver read it; for
  a completed own frame, of the surplus bytes. -/
  | frameEnd (bytes : List Byte) (framingError : Bool)
  /-- OPPORTUNITY (R28). -/
  | opportunity
  /-- COMPLETION (R31). -/
  | completion
  /-- FAILED_ATTEMPT (R32) at a bit of the own frame, counted from the start bit of SYNC. -/
  | failedAttempt (bit : Nat)
  /-- EMPTY_ROTATION (R33). -/
  | emptyRotation
  /-- LEAVE_TIMER_EXPIRY (R23). -/
  | leaveTimerExpiry
  /-- AGREEMENT_POINT (R44). -/
  | agreementPoint
  /-- SILENCE_TIMER_EXPIRY (R58) of a peer's entry. -/
  | silenceTimerExpiry (station : Station)
  /-- EXPEL_TIMER_EXPIRY (R60) of a peer's entry. -/
  | expelTimerExpiry (station : Station)
  /-- EDGE (R72): the input and the level now sampled, true for high. -/
  | edge (input : InputNo) (level : Bool)
  /-- DEBOUNCE_EXPIRY (R74) of an input's pending state. -/
  | debounceExpiry (input : InputNo)
  /-- BEACON_TIMER_EXPIRY (R85). -/
  | beaconTimerExpiry
  /-- GAP_DEADLINE (R105) of the gap of a station with the first sequence given. -/
  | gapDeadline (station : Station) (first : Seq)
  /-- ORDERED_RELEASE (R131). -/
  | orderedRelease
  /-- IDLE_TIMER_EXPIRY (R156) of a stream. -/
  | idleTimerExpiry (stream : StreamId)
  /-- FRAME_START (R2). -/
  | frameStart
  /-- LOCAL_COUNT_INCREMENT (R40): the levels at the sixteen inputs, used for their first sample after a
  full reset (R72, R79), and the level of the receive-data input in the microsecond that the increment ends,
  true for the idle level (R1). -/
  | localCountIncrement (inputs : BitVec 16) (receiveData : Bool)
  /-- LINE_RELEASE_AFTER_FRAMING_ERROR (R26). -/
  | lineReleaseAfterFramingError
  deriving DecidableEq, Repr

end Sys2Proof
end

