-- ==== Sys2Proof/Decode.lean ====
section
/-! DEFINITION. What bytes name which command: Table 1-11 of the host port (R17, R166), and the decoder of
table words. spec/opcode_table.json gives no row any bits, so no word spells a command. -/

namespace Sys2Proof

/-! ### The bytes of a host command (Table 1-11) -/

/-- R166, Table 1-11: how many parameter bytes follow a command byte; none for a byte the table does not
list. -/
def parameterCount (command : Byte) : Option Nat :=
  if command ∈ [(0x03 : Byte), 0x05, 0x06, 0x08, 0x12, 0x21, 0x22, 0x23] then some 0
  else if command ∈ [(0x02 : Byte), 0x04, 0x07] then some 1
  else if command ∈ [(0x01 : Byte), 0x11] then some 2
  else if command = 0x20 then some 5
  else if command = 0x10 then some 6
  else none

/-- Table 1-11: the commands without parameters. -/
def plainCommand (command : Byte) : Option Instr :=
  if command = 0x03 then some .readUrgent
  else if command = 0x05 then some .readChanges
  else if command = 0x06 then some .readClock
  else if command = 0x08 then some .clearCounters
  else if command = 0x12 then some .commit
  else if command = 0x21 then some .unmute
  else if command = 0x22 then some .leave
  else if command = 0x23 then some .restart
  else none

/-- R166, Table 1-11: the command that a command byte and its parameter bytes name. A value of several bytes is sent
least significant byte first (01, Layouts). -/
def namedCommand (command : Byte) (parameters : List Byte) : Option Instr :=
  match parameters with
  | [] => plainCommand command
  | [a] =>
    if command = 0x02 then some (.readLatch a)
    else if command = 0x04 then some (.readRoster a)
    else if command = 0x07 then some (.readCounters a)
    else none
  | [a, b] =>
    if command = 0x01 then some (.readStream a b)
    else if command = 0x11 then some (.setupRead a b)
    else none
  | [channel, code, flags, v0, v1] =>
    if command = 0x20 then some (.submit channel code flags (v1 ++ v0)) else none
  | [item, index, v0, v1, v2, v3] =>
    if command = 0x10 then some (.setupWrite item index (v3 ++ v2 ++ v1 ++ v0)) else none
  | _ => none

/-- R166 to R168: the command taken in a transaction in which the host clocks in these bytes; none while the command
byte or a parameter byte is missing. Bytes after the last parameter are ignored. -/
def hostCommand (bytes : List Byte) : Option Instr :=
  match bytes with
  | [] => none
  | command :: rest =>
    match parameterCount command with
    | none => some (.badCommand command)
    | some n => if rest.length < n then none else namedCommand command (rest.take n)

/-- Table 1-11: the bytes the host clocks in for a command; none for what is no host command. -/
def Instr.hostBytes : Instr → List Byte
  | .readStream stream max => [0x01, stream, max]
  | .readLatch slot => [0x02, slot]
  | .readUrgent => [0x03]
  | .readRoster station => [0x04, station]
  | .readChanges => [0x05]
  | .readClock => [0x06]
  | .readCounters group => [0x07, group]
  | .clearCounters => [0x08]
  | .setupWrite item index value =>
    [0x10, item, index, value.extractLsb' 0 8, value.extractLsb' 8 8, value.extractLsb' 16 8,
      value.extractLsb' 24 8]
  | .setupRead item index => [0x11, item, index]
  | .commit => [0x12]
  | .submit channel code flags value =>
    [0x20, channel, code, flags, value.extractLsb' 0 8, value.extractLsb' 8 8]
  | .unmute => [0x21]
  | .leave => [0x22]
  | .restart => [0x23]
  | .badCommand byte => [byte]
  | .fullReset _ | .transactionStart | .transactionEnd | .frameEnd _ _ | .opportunity | .completion
  | .failedAttempt _ | .emptyRotation | .leaveTimerExpiry | .agreementPoint | .silenceTimerExpiry _
  | .expelTimerExpiry _ | .edge _ _ | .debounceExpiry _ | .beaconTimerExpiry | .gapDeadline _ _
  | .orderedRelease | .idleTimerExpiry _ | .frameStart | .localCountIncrement _ _
  | .lineReleaseAfterFramingError => []

/-! ### Table words -/

/-- The command that a word spells by the table's bits: none, for the table gives no bits (log 20). -/
def decodeTableWord (_nbits _w : Nat) : Option Instr := none

end Sys2Proof
end

