-- ==== Sys2Proof/Config.lean ====
section
/-! DEFINITION. The values the manual leaves open. Each is a constant without a body, so that nothing can
be proved of its value. -/

namespace Sys2Proof

/-- DESIGN CHOICE, log 9, safe: which of several times counts as the earliest when the comparison modulo 2^48 (00,
Time) singles out none of them, or more than one. The answer is an index into the list, taken modulo its
length, so the time chosen is always one of those given. -/
opaque Config.earliestOpen : List Time → Nat

/-- DESIGN CHOICE, log 10, safe: the place of an arrival with this timestamp in a pool with these timestamps,
where journal order (R126) gives it no one place. The answer is taken modulo the number of places. -/
opaque Config.placeOpen : Time → List Time → Nat

/-- DESIGN CHOICE, log 11, safe: the 48 bits that a signed field of a reply holds when its value lies outside
48-bit two's complement (R17 gives the field, and no value for such a number). -/
opaque Config.signed48Outside : Int → BitVec 48

/-- DESIGN CHOICE, log 34, safe: a fall of the receive-data line at this L comes before an agreement point that falls at the
same L (R42 allows either order). -/
opaque Config.fallFirst : Time → Bool

/-- DESIGN CHOICE, log 33, safe: what the host port's data output does while chip select is active and the port ignores it (R185, R186); by
the number of the bit, none where it is not driven. -/
opaque Config.outputIgnoring : Nat → Option Bool

end Sys2Proof
end

