-- ==== Sys2Proof/Machine/Types.lean ====
section
/-! DEFINITION. The data the blocks of the ZS-24 hold: records, frames, journal entries, roster and
sequence entries, gaps, rules, setup values, counters. -/

namespace Sys2Proof.Machine

/-! ### Records and frames (01) -/

/-- The fields of an event record as the line carries them (R10, Table 1-6). -/
structure EventData where
  channel : Channel
  code : Byte
  timestamp : Time
  /-- CLOCK-UNSURE -/
  unsure : Bool
  /-- the value, when HAS-VALUE is set -/
  value : Option (BitVec 16)
  /-- the loss field, when HAS-LOSS is set -/
  loss : Option Byte
  deriving DecidableEq, Repr

/-- A record with the station, incarnation and sequence number that identify it (R125). -/
structure Record where
  station : Station
  incarnation : Byte
  seq : Seq
  data : EventData
  deriving DecidableEq, Repr

/-- A range of sequence numbers of a REQUEST (R8) and a repeat job (R88): 1 to 255 numbers. -/
structure SeqRange where
  first : Seq
  count : Byte
  deriving DecidableEq, Repr

/-- The four frame bodies; REPEAT has two forms (R6 to R9). -/
inductive Body where
  | event (watermark : Time) (first : Seq) (records : List EventData)
  | beacon (watermark : Time) (next : Seq) (leaving : Bool)
  | request (target : Station) (targetIncarnation : Byte) (ranges : List SeqRange)
  | repeatRecords (first : Seq) (records : List EventData)
  | repeatGone (first : Seq) (count : Byte)
  deriving DecidableEq, Repr

/-- A frame's header fields and body (R4). -/
structure Frame where
  sender : Station
  incarnation : Byte
  /-- CLOCK-AGREED -/
  clockAgreed : Bool
  sendStamp : Time
  body : Body
  deriving DecidableEq, Repr

/-- The four classes of R11 and R12. -/
inductive FrameClass where
  | cutShort
  | crcFailed
  | malformed (sender : Station)
  | good (frame : Frame)
  deriving DecidableEq, Repr

/-! ### Line access (02) -/

inductive Mode where
  | setup
  | listening
  | active
  | leaving
  | stopped
  deriving DecidableEq, Repr

inductive LineState where
  | idle
  | receiving
  | transmitting
  deriving DecidableEq, Repr

inductive Transmitter where
  | ready
  | backoff
  | mute
  deriving DecidableEq, Repr

/-- A fall of the receive-data line from the idle to the active level (R1, R42). -/
structure Fall where
  /-- ST at the fall -/
  stamp : Time
  /-- L at the fall -/
  stampL : Time
  /-- the idle time, in microseconds, at the fall -/
  idle : Nat
  deriving DecidableEq, Repr

/-- What the receiver is doing with the receive-data line (R1). -/
inductive Phase where
  /-- it looks for a fall -/
  | searching
  /-- a fall that is not confirmed yet -/
  | falling (f : Fall)
  /-- inside a byte whose start bit is confirmed; so many data bits are read, the first in bit 0 -/
  | reading (f : Fall) (bits : Nat) (value : Byte)
  /-- past a framing error, until the line's release is taken; for so many microseconds the line has been back at the
  idle level -/
  | held (rested : Nat)
  deriving DecidableEq, Repr

/-- The receiver. The byte count and the CRC register of the open frame are functions of `bytes` (log 23). -/
structure Receiver where
  phase : Phase
  /-- the bytes of the open frame completed so far; after an own frame has completed, the surplus bytes -/
  bytes : List Byte
  /-- the framing-error mark -/
  framingError : Bool
  /-- the receive stamp, ST at the frame start -/
  stamp : Time
  /-- L at the frame start -/
  stampL : Time
  deriving DecidableEq, Repr

/-- An own frame from the fall of its SYNC start bit until completion or failure (R37). -/
structure Flight where
  frame : Frame
  /-- L at the fall of the SYNC start bit -/
  startL : Time
  /-- the gaps a REQUEST covers, by station and first sequence (R103) -/
  covered : List (Station × Seq)
  /-- the first bit that read back different, counted from the start bit of SYNC, ten to a byte (R30) -/
  mismatch : Option Nat
  deriving DecidableEq, Repr

/-- The state of line access and its receiver. -/
structure Line where
  mode : Mode
  lineState : LineState
  /-- the rotation reference; none is UNKNOWN -/
  reference : Option Station
  /-- the idle time in microseconds of L -/
  idle : Nat
  /-- microseconds of the last stop bit that have still to pass before the idle time runs (logs 6 and 32) -/
  stopLeft : Nat
  /-- empty rotations counted since the idle time restarted -/
  rotations : Nat
  /-- opportunities at idle times below this have passed -/
  opportunityFloor : Nat
  transmitter : Transmitter
  failures : Nat
  backoff : Nat
  goodRun : Nat
  /-- the next frame end is that of the frame a failed attempt left open, which BACKOFF does not count -/
  skipFrameEnd : Bool
  /-- the line-observed mark -/
  observed : Bool
  /-- the leave timer's expiry on L -/
  leaveTimer : Option Time
  receiver : Receiver
  flight : Option Flight
  deriving DecidableEq, Repr

/-! ### Station clock (03) -/

inductive ClockState where
  | free
  | converging
  | agreed
  deriving DecidableEq, Repr

structure Clock where
  /-- the local count L -/
  l : Time
  /-- station time ST -/
  st : Time
  /-- the slew debt D -/
  debt : Nat
  state : ClockState
  goodPoints : Nat
  alonePoints : Nat
  /-- the L of the next agreement point, while the timer runs -/
  nextPoint : Option Time
  /-- the first-point mark -/
  firstPoint : Bool
  lastDecision : Int
  lastDecisionL : Time
  lastM : Int
  /-- the model's own (log 34): ST as it stood before the correction of an agreement point taken at this L -/
  uncorrected : Option Time
  deriving DecidableEq, Repr

/-! ### Roster (04) -/

inductive Membership where
  | absent
  | joining
  | live
  | silent
  deriving DecidableEq, Repr

/-- An offset sample (R43). -/
structure Sample where
  offset : Int
  time : Time
  agreed : Bool
  deriving DecidableEq, Repr

/-- A roster entry (R53, Table 4-1). -/
structure RosterEntry where
  state : Membership
  incarnation : Byte
  lastHeard : Time
  heardAt : Time
  sample : Option Sample
  mark : Bool
  deriving DecidableEq, Repr

/-! ### Capture unit and outbound side (05) -/

inductive EdgeSelect where
  | off
  | rise
  | fall
  | both
  deriving DecidableEq, Repr

/-- A pending state (R73). -/
structure PendingEdge where
  edgeTime : Time
  edgeL : Time
  level : Bool
  /-- the clock state was AGREED at the edge -/
  agreed : Bool
  deriving DecidableEq, Repr

structure Capture where
  /-- the last sampled levels -/
  levels : BitVec 16
  /-- the inputs have been sampled since the last full reset -/
  sampled : Bool
  pendingEdges : Vector (Option PendingEdge) 16
  /-- the pending-loss count -/
  lossCount : BitVec 8
  deriving DecidableEq, Repr

structure Outbound where
  nextSeq : Seq
  sentCount : Nat
  outq : List Record
  history : List Record
  jobs : List SeqRange
  /-- the beacon timer's expiry on L -/
  beaconTimer : Option Time
  /-- the beacon timer has expired since its last start -/
  beaconDue : Bool
  lastWatermark : Time
  deriving DecidableEq, Repr

/-! ### Sequencer (06) -/

/-- A present entry of the sequence table (R92); `next` is NE, none while unset. -/
structure SeqEntry where
  incarnation : Byte
  next : Option Seq
  watermark : Time
  deriving DecidableEq, Repr

inductive GapState where
  | waiting
  | requested
  deriving DecidableEq, Repr

/-- An entry of the gap table (R97). -/
structure Gap where
  station : Station
  incarnation : Byte
  first : Seq
  count : Nat
  bound : Time
  tries : Nat
  deadline : Time
  state : GapState
  /-- the deadline has come with tries below max tries (R102) -/
  due : Bool
  deriving DecidableEq, Repr

structure Sequencer where
  table : Vector (Option SeqEntry) 32
  gaps : List Gap
  deriving DecidableEq, Repr

/-- The six reasons of R110, with the codes of Table 1-7. -/
inductive HoleReason where
  | noAnswer
  | gone
  | left
  | restart
  | noRoom
  | beyond
  deriving DecidableEq, Repr

/-- A hole marker (R110). -/
structure Hole where
  station : Station
  incarnation : Byte
  first : Seq
  count : Nat
  reason : HoleReason
  bound : Time
  deriving DecidableEq, Repr

/-! ### Acceptance unit (07) -/

inductive RuleKind where
  | disabled
  | range
  | pair
  | masked
  deriving DecidableEq, Repr

inductive Action where
  | toA
  | toB
  | discard
  | latch
  deriving DecidableEq, Repr

/-- The default action (R113): never LATCH. -/
inductive DefaultAction where
  | toA
  | toB
  | discard
  deriving DecidableEq, Repr

/-- An acceptance rule (R113, Table 7-1). -/
structure Rule where
  kind : RuleKind
  a : Key
  b : Key
  action : Action
  slot : SlotNo
  urgent : Bool
  deriving DecidableEq, Repr

/-- An urgent note (R119). -/
structure Note where
  station : Station
  channel : Channel
  code : Byte
  seq : Seq
  timestamp : Time
  action : Action
  slot : SlotNo
  deriving DecidableEq, Repr

structure Urgent where
  notes : List Note
  overflow : Bool
  deriving DecidableEq, Repr

/-! ### Merge pool, streams and latch slots (08, 09) -/

/-- What the pool holds and the streams carry: a record or a hole marker (R125). -/
inductive Item where
  | record (r : Record)
  | hole (h : Hole)
  deriving DecidableEq, Repr

/-- Where an entry leaves the pool to (R118, R111). -/
inductive Destination where
  | stream (id : StreamId)
  | bothStreams
  | slot (n : SlotNo)
  deriving DecidableEq, Repr

structure PoolEntry where
  item : Item
  destination : Destination
  deriving DecidableEq, Repr

/-- A journal entry (R132, R150); `dropped` is present when HAS-DROPPED is set. -/
structure JournalEntry where
  item : Item
  late : Bool
  forced : Bool
  dropped : Option (BitVec 8)
  deriving DecidableEq, Repr

/-- A journal stream (R148, Table 9-1). -/
structure JournalStream where
  entries : List JournalEntry
  /-- the dropped-since-last count -/
  dropped : BitVec 8
  timeout : Bool
  /-- the idle timer's expiry on L -/
  idleTimer : Option Time
  deriving DecidableEq, Repr

/-- A filled latch slot (R160). -/
structure Latch where
  record : Record
  forced : Bool
  fresh : Bool
  deriving DecidableEq, Repr

/-- The merge pool with its release-through, the streams and the latch slots. -/
structure Journal where
  pool : List PoolEntry
  /-- the release-through R -/
  through : Time
  streamA : JournalStream
  streamB : JournalStream
  latches : Vector (Option Latch) 16
  deriving DecidableEq, Repr

/-! ### Host port (10) -/

inductive LatePolicy where
  | drop
  | deliver
  deriving DecidableEq, Repr

inductive StreamMode where
  | hold
  | drop
  deriving DecidableEq, Repr

/-- The four thresholds of R149. -/
inductive Threshold where
  | t1
  | t4
  | t16
  | t48
  deriving DecidableEq, Repr

structure StreamSetup where
  mode : StreamMode
  threshold : Threshold
  /-- milliseconds -/
  idleTimeout : Nat
  deriving DecidableEq, Repr

/-- The setup values of Table 10-2. -/
structure Setup where
  station : Station
  incarnation : Byte
  clockDivider : Nat
  bitTime : Nat
  slotWidth : Nat
  delayCompensation : Nat
  beaconInterval : Nat
  silenceTimeout : Nat
  expelTimeout : Nat
  agreementPeriod : Nat
  precisionBound : Nat
  stepLimit : Nat
  requestTimeout : Nat
  maxTries : Nat
  debounce : Nat
  edges : Vector EdgeSelect 16
  defaultAction : DefaultAction
  latePolicy : LatePolicy
  holesToB : Bool
  streamA : StreamSetup
  streamB : StreamSetup
  attentionMask : BitVec 7
  rules : Vector Rule 48
  deriving DecidableEq, Repr

/-- The fifteen counters of R179, in the order of Table 10-5. -/
structure Counters where
  framesGood : BitVec 16
  framesBad : BitVec 16
  attemptsFailed : BitVec 16
  requestsSent : BitVec 16
  requestsSuppressed : BitVec 16
  repeatsSent : BitVec 16
  duplicatesDiscarded : BitVec 16
  jobsDropped : BitVec 16
  captureLost : BitVec 16
  lateDropped : BitVec 16
  forcedReleases : BitVec 16
  holesCreated : BitVec 16
  streamADropped : BitVec 16
  streamBDropped : BitVec 16
  urgentOverflows : BitVec 16
  deriving DecidableEq, Repr

/-- The names of the fifteen counters. -/
inductive Counter where
  | framesGood
  | framesBad
  | attemptsFailed
  | requestsSent
  | requestsSuppressed
  | repeatsSent
  | duplicatesDiscarded
  | jobsDropped
  | captureLost
  | lateDropped
  | forcedReleases
  | holesCreated
  | streamADropped
  | streamBDropped
  | urgentOverflows
  deriving DecidableEq, Repr

/-- The stages of a transaction (R165 to R167, R186). -/
inductive Stage where
  /-- chip select inactive -/
  | idle
  /-- chip select active, no command taken yet -/
  | opened
  /-- a command taken, the reply being clocked out or complete -/
  | replied
  /-- chip select active and ignored: RST is held, or has been while this transaction lasted; the port waits for chip
  select to go inactive -/
  | ignored
  deriving DecidableEq, Repr

structure HostPort where
  stage : Stage
  /-- the latched status byte -/
  status : Byte
  /-- the prepared reply: result byte and data -/
  reply : List Byte
  deriving DecidableEq, Repr

end Sys2Proof.Machine
end

