-- ==== Sys2Proof/Machine/State.lean ====
section
/-! DEFINITION. The state of a ZS-24 station, the reasons a step can stop, and the state after a full
reset. -/

namespace Sys2Proof.Machine

/-- The reasons the machine stops with a fault. The spec names none (INVENTORY, Faults), so there is no
constructor: no meaning can answer a fault. -/
inductive Fault where
  deriving DecidableEq, Repr

/-- The reasons a command is refused. -/
inductive Refusal where
  /-- A command without a meaning, raised only by a refused arm of `exec`; there is no such arm. Safe. -/
  | notModelled (mnemonic : String)
  deriving DecidableEq, Repr

/-- The state of one station, block by block, and the queue of waiting commands. -/
structure State where
  /-- commands waiting, the first at the front -/
  pending : List Instr
  setup : Setup
  line : Line
  clock : Clock
  roster : Vector RosterEntry 32
  capture : Capture
  outbound : Outbound
  sequencer : Sequencer
  urgent : Urgent
  journal : Journal
  counters : Counters
  lossAdvanced : Bool
  clockChanged : Bool
  host : HostPort
  /-- the level last read at the receive-data input, true for the idle level (R1) -/
  receiveData : Bool
  /-- RST is held active (R185) -/
  inReset : Bool
  deriving DecidableEq, Repr

/-! ### The values after a reset, block by block -/

/-- R113: a rule after full reset. -/
def Rule.initial : Rule := ⟨.disabled, 0, 0, .toA, 0, false⟩

/-- R171: the defaults of a stream's setup values. -/
def StreamSetup.initial : StreamSetup := ⟨.drop, .t1, 10⟩

/-- R171: the defaults of Table 10-2. -/
def Setup.initial : Setup where
  station := 0
  incarnation := 0
  clockDivider := 16
  bitTime := 4
  slotWidth := 8
  delayCompensation := 0
  beaconInterval := 50
  silenceTimeout := 200
  expelTimeout := 10000
  agreementPeriod := 100
  precisionBound := 50
  stepLimit := 200
  requestTimeout := 5
  maxTries := 3
  debounce := 1000
  edges := Vector.replicate 16 .off
  defaultAction := .toA
  latePolicy := .deliver
  holesToB := false
  streamA := .initial
  streamB := .initial
  attentionMask := 127
  rules := Vector.replicate 48 .initial

/-- No byte under way and no open frame (R2). The mark and the stamps are DESIGN CHOICE, log 19. -/
def Receiver.initial : Receiver := ⟨.searching, [], false, 0, 0⟩

/-- R19. -/
def Line.initial : Line where
  mode := .setup
  lineState := .idle
  reference := none
  idle := 0
  stopLeft := 0
  rotations := 0
  opportunityFloor := 0
  transmitter := .ready
  failures := 0
  backoff := 0
  goodRun := 0
  skipFrameEnd := false
  observed := false
  leaveTimer := none
  receiver := .initial
  flight := none

/-- R41. -/
def Clock.initial : Clock where
  l := 0
  st := 0
  debt := 0
  state := .free
  goodPoints := 0
  alonePoints := 0
  nextPoint := none
  firstPoint := false
  lastDecision := 0
  lastDecisionL := 0
  lastM := 0
  uncorrected := none

/-- R53: an entry that has not been heard in the session. -/
def RosterEntry.initial : RosterEntry := ⟨.absent, 0, 0, 0, none, false⟩

/-- R54. -/
def Roster.initial : Vector RosterEntry 32 := Vector.replicate 32 .initial

/-- R79: not sampled yet. The levels themselves are DESIGN CHOICE low, log 15. -/
def Capture.initial : Capture := ⟨0, false, Vector.replicate 16 none, 0⟩

/-- R79. -/
def Outbound.initial : Outbound where
  nextSeq := 0
  sentCount := 0
  outq := []
  history := []
  jobs := []
  beaconTimer := none
  beaconDue := false
  lastWatermark := 0

/-- R92. -/
def Sequencer.initial : Sequencer := ⟨Vector.replicate 32 none, []⟩

/-- R124. -/
def Urgent.initial : Urgent := ⟨[], false⟩

/-- R148. -/
def JournalStream.initial : JournalStream := ⟨[], 0, false, none⟩

/-- R127, R148, R160. -/
def Journal.initial : Journal where
  pool := []
  through := 0
  streamA := .initial
  streamB := .initial
  latches := Vector.replicate 16 none

/-- R179. -/
def Counters.initial : Counters := ⟨0, 0, 0, 0, 0, 0, 0, 0, 0, 0, 0, 0, 0, 0, 0⟩

/-- Table 10-7: idle. The status byte and the reply are DESIGN CHOICE empty, log 19. -/
def HostPort.initial : HostPort := ⟨.idle, 0, []⟩

/-- R185: the part after a full reset, RST released, with chip select inactive and no command waiting. The level at
the receive-data input is DESIGN CHOICE idle, log 19. -/
def State.reset : State where
  pending := []
  setup := .initial
  line := .initial
  clock := .initial
  roster := Roster.initial
  capture := .initial
  outbound := .initial
  sequencer := .initial
  urgent := .initial
  journal := .initial
  counters := .initial
  lossAdvanced := false
  clockChanged := false
  host := .initial
  receiveData := true
  inReset := false

end Sys2Proof.Machine
end

