-- ==== Sys2Proof/Machine/Ops.lean ====
section
/-! DEFINITION. The named operations every block uses: the comparisons of times and sequence numbers,
capacities, access to the tables of State, counters, and the tests of the station mode. -/

namespace Sys2Proof.Machine

/-! ### Times and sequence numbers (00, Conventions) -/

/-- 00, Time: `a` lies 1 to 2^47 µs before `b`. -/
def timeEarlier (a b : Time) : Bool := decide (1 ≤ (b - a).toNat ∧ (b - a).toNat ≤ 2 ^ 47)

/-- 00, Time: `a` lies 1 to 2^47 − 1 µs after `b`. -/
def timeLater (a b : Time) : Bool := decide (1 ≤ (a - b).toNat ∧ (a - b).toNat < 2 ^ 47)

/-- 00, Sequence numbers: `a` lies 1 to 2^15 before `b`. -/
def seqBelow (a b : Seq) : Bool := decide (1 ≤ (b - a).toNat ∧ (b - a).toNat ≤ 2 ^ 15)

/-- 00, Sequence numbers: `a` lies 1 to 2^15 − 1 after `b`. -/
def seqAbove (a b : Seq) : Bool := decide (1 ≤ (a - b).toNat ∧ (a - b).toNat < 2 ^ 15)

/-- A count on L has reached an instant: it stands at it or after it (DEDUCED, log 3). -/
def reached (l instant : Time) : Bool := decide ((l - instant).toNat < 2 ^ 47)

/-- A number of microseconds as a time. -/
def micros (n : Nat) : Time := BitVec.ofNat 48 n

/-- A number of milliseconds as a time. -/
def millis (n : Nat) : Time := micros (1000 * n)

/-- `a` is the earliest of a list: equal to or earlier than each of its times. -/
def isEarliestOf (a : Time) (ts : List Time) : Bool := ts.all fun b => a == b || timeEarlier a b

/-- The earliest of the times `t :: ts`. Where the comparison modulo 2^48 singles out no time, or more than
one, the choice among them is free (log 9). -/
def earliestOf (t : Time) (ts : List Time) : Time :=
  match (t :: ts).filter (fun a => isEarliestOf a (t :: ts)) with
  | a :: as =>
    if as.all (· == a) then a
    else (t :: ts).getD (Config.earliestOpen (t :: ts) % (t :: ts).length) t
  | [] => (t :: ts).getD (Config.earliestOpen (t :: ts) % (t :: ts).length) t

/-! ### Capacities -/

/-- R80 -/
def outqCapacity : Nat := 32
/-- R81 -/
def historyCapacity : Nat := 128
/-- R88 -/
def jobCapacity : Nat := 8
/-- R97 -/
def gapCapacity : Nat := 32
/-- R97: the longest run tracked as a gap -/
def longestGap : Nat := 1024
/-- R120 -/
def noteCapacity : Nat := 4
/-- R125 -/
def poolCapacity : Nat := 256
/-- R148 -/
def streamCapacity : Nat := 64
/-- R79 -/
def sentCountCap : Nat := 32768
/-- R35 -/
def goodRunCap : Nat := 128
/-- R34 -/
def muteFailures : Nat := 16
/-- R32 -/
def backoffCap : Nat := 8
/-- R6, R9: the most records one frame carries -/
def recordsPerFrame : Nat := 8
/-- R8: the most ranges one REQUEST carries -/
def rangesPerRequest : Nat := 4

/-! ### Station modes -/

/-- R18: the modes in which the receiver takes bytes and frames, and L-timers of the roster, the sequencer and
the clock are taken. -/
def Mode.onLine : Mode → Bool
  | .listening | .active | .leaving => true
  | .setup | .stopped => false

/-- R18: the modes in which the pool releases and own frames are sent. -/
def Mode.working : Mode → Bool
  | .active | .leaving => true
  | .setup | .listening | .stopped => false

/-- The station mode. -/
def State.mode (s : State) : Mode := s.line.mode

/-- The current station time. -/
def State.st (s : State) : Time := s.clock.st

/-- The current local count. -/
def State.l (s : State) : Time := s.clock.l

/-- The own station number. -/
def State.own (s : State) : Station := s.setup.station

/-! ### Tables -/

/-- Station `i`'s roster entry. -/
def State.entry (s : State) (i : Station) : RosterEntry := s.roster[i.val]

/-- Replace station `i`'s roster entry. -/
def State.setEntry (s : State) (i : Station) (e : RosterEntry) : State :=
  { s with roster := s.roster.set i.val e }

/-- Station `i`'s sequence entry. -/
def State.seqEntry (s : State) (i : Station) : Option SeqEntry := s.sequencer.table[i.val]

/-- Replace station `i`'s sequence entry. -/
def State.setSeqEntry (s : State) (i : Station) (e : Option SeqEntry) : State :=
  { s with sequencer := { s.sequencer with table := s.sequencer.table.set i.val e } }

/-- Replace the gap table. -/
def State.setGaps (s : State) (gs : List Gap) : State :=
  { s with sequencer := { s.sequencer with gaps := gs } }

/-- The pending state of input `i`. -/
def State.pendingEdge (s : State) (i : InputNo) : Option PendingEdge := s.capture.pendingEdges[i.val]

/-- Replace the pending state of input `i`. -/
def State.setPendingEdge (s : State) (i : InputNo) (p : Option PendingEdge) : State :=
  { s with capture := { s.capture with pendingEdges := s.capture.pendingEdges.set i.val p } }

/-- One of the two streams. -/
def Journal.stream (j : Journal) : StreamId → JournalStream
  | .a => j.streamA
  | .b => j.streamB

/-- Replace one of the two streams. -/
def Journal.setStream (j : Journal) (id : StreamId) (st : JournalStream) : Journal :=
  match id with
  | .a => { j with streamA := st }
  | .b => { j with streamB := st }

/-- A stream of the state. -/
def State.stream (s : State) (id : StreamId) : JournalStream := s.journal.stream id

/-- Replace a stream of the state. -/
def State.setStream (s : State) (id : StreamId) (st : JournalStream) : State :=
  { s with journal := s.journal.setStream id st }

/-- The setup values of one stream. -/
def Setup.stream (c : Setup) : StreamId → StreamSetup
  | .a => c.streamA
  | .b => c.streamB

/-! ### Counters (R179) -/

/-- 00, Counters and counts: a 16-bit count that holds at 65,535. -/
def saturate16 (c : BitVec 16) : BitVec 16 := if c = 65535 then c else c + 1

/-- An 8-bit count that holds at 255 (R78, R151). -/
def saturate8 (c : BitVec 8) : BitVec 8 := if c = 255 then c else c + 1

/-- The value of a counter. -/
def Counters.get (c : Counters) : Counter → BitVec 16
  | .framesGood => c.framesGood
  | .framesBad => c.framesBad
  | .attemptsFailed => c.attemptsFailed
  | .requestsSent => c.requestsSent
  | .requestsSuppressed => c.requestsSuppressed
  | .repeatsSent => c.repeatsSent
  | .duplicatesDiscarded => c.duplicatesDiscarded
  | .jobsDropped => c.jobsDropped
  | .captureLost => c.captureLost
  | .lateDropped => c.lateDropped
  | .forcedReleases => c.forcedReleases
  | .holesCreated => c.holesCreated
  | .streamADropped => c.streamADropped
  | .streamBDropped => c.streamBDropped
  | .urgentOverflows => c.urgentOverflows

/-- One counter advances by one, or holds at its maximum. -/
def Counters.advance (c : Counters) : Counter → Counters
  | .framesGood => { c with framesGood := saturate16 c.framesGood }
  | .framesBad => { c with framesBad := saturate16 c.framesBad }
  | .attemptsFailed => { c with attemptsFailed := saturate16 c.attemptsFailed }
  | .requestsSent => { c with requestsSent := saturate16 c.requestsSent }
  | .requestsSuppressed => { c with requestsSuppressed := saturate16 c.requestsSuppressed }
  | .repeatsSent => { c with repeatsSent := saturate16 c.repeatsSent }
  | .duplicatesDiscarded => { c with duplicatesDiscarded := saturate16 c.duplicatesDiscarded }
  | .jobsDropped => { c with jobsDropped := saturate16 c.jobsDropped }
  | .captureLost => { c with captureLost := saturate16 c.captureLost }
  | .lateDropped => { c with lateDropped := saturate16 c.lateDropped }
  | .forcedReleases => { c with forcedReleases := saturate16 c.forcedReleases }
  | .holesCreated => { c with holesCreated := saturate16 c.holesCreated }
  | .streamADropped => { c with streamADropped := saturate16 c.streamADropped }
  | .streamBDropped => { c with streamBDropped := saturate16 c.streamBDropped }
  | .urgentOverflows => { c with urgentOverflows := saturate16 c.urgentOverflows }

/-- Table 10-5: the loss group. -/
def Counter.isLoss : Counter → Bool
  | .captureLost | .lateDropped | .forcedReleases | .holesCreated | .streamADropped | .streamBDropped
  | .urgentOverflows => true
  | .framesGood | .framesBad | .attemptsFailed | .requestsSent | .requestsSuppressed | .repeatsSent
  | .duplicatesDiscarded | .jobsDropped => false

/-- The drop counter of a stream (R151). -/
def Counter.streamDropped : StreamId → Counter
  | .a => .streamADropped
  | .b => .streamBDropped

/-- R177, R179: an event of Table 10-5 advances its counter, and one of the loss group sets loss-advanced. -/
def State.count (s : State) (c : Counter) : State :=
  { s with counters := s.counters.advance c, lossAdvanced := s.lossAdvanced || c.isLoss }

end Sys2Proof.Machine
end

