-- ==== Sys2Proof/Machine/Pool.lean ====
section
/-! DEFINITION. The merge pool, the journal streams and the latch slots (08, 09): journal order, the
horizon, arrival, ordered and forced release, writing and dropping. -/

namespace Sys2Proof.Machine

/-! ### Journal order (R126) -/

def Item.timestamp : Item → Time
  | .record r => r.data.timestamp
  | .hole h => h.bound

def Item.station : Item → Station
  | .record r => r.station
  | .hole h => h.station

def Item.incarnation : Item → Byte
  | .record r => r.incarnation
  | .hole h => h.incarnation

/-- The sequence number of a record, the first of a hole marker. -/
def Item.seq : Item → Seq
  | .record r => r.seq
  | .hole h => h.first

def Item.isHole : Item → Bool
  | .record _ => false
  | .hole _ => true

/-- R126: one entry stands before another. Incarnations and sequence numbers compare as plain numbers. -/
def Item.standsBefore (a b : Item) : Bool :=
  if a.timestamp ≠ b.timestamp then timeEarlier a.timestamp b.timestamp
  else if a.station ≠ b.station then decide (a.station < b.station)
  else if a.incarnation ≠ b.incarnation then decide (a.incarnation < b.incarnation)
  else if a.seq ≠ b.seq then decide (a.seq < b.seq)
  else a.isHole && !b.isHole

/-- R126, R137: the number of pooled entries ahead of an arrival: those up to the first it stands before, where
all from there on stand after it; free where journal order gives no such place (log 10). -/
def placeInOrder (e : PoolEntry) (pool : List PoolEntry) : Nat :=
  let ahead := (pool.takeWhile fun x => !e.item.standsBefore x.item).length
  if (pool.drop ahead).all fun x => e.item.standsBefore x.item && !x.item.standsBefore e.item then ahead
  else Config.placeOpen e.item.timestamp (pool.map (·.item.timestamp)) % (pool.length + 1)

/-- R126, R137: an entry takes its place in journal order. -/
def insertInOrder (e : PoolEntry) (pool : List PoolEntry) : List PoolEntry :=
  pool.take (placeInOrder e pool) ++ e :: pool.drop (placeInOrder e pool)

/-- Two items are records with the same station, incarnation and sequence (R125, R136). -/
def Item.sameRecord : Item → Item → Bool
  | .record r, .record q => r.station == q.station && r.incarnation == q.incarnation && r.seq == q.seq
  | .record _, .hole _ | .hole _, .record _ | .hole _, .hole _ => false

/-! ### Streams and latch slots (R148 to R161) -/

/-- R151: an entry is dropped for want of room in a stream. -/
def State.dropFor (s : State) (id : StreamId) : State :=
  (s.setStream id { s.stream id with dropped := saturate8 (s.stream id).dropped }).count (.streamDropped id)

/-- R156: the idle timer starts or restarts; in SETUP it stays stopped (Table 9-3). -/
def State.restartIdleTimer (s : State) (id : StreamId) : State :=
  if s.mode = .setup then s
  else s.setStream id { s.stream id with idleTimer := some (s.l + millis (s.setup.stream id).idleTimeout) }

/-- R150: an entry is appended at the tail, with HAS-DROPPED if entries were dropped since the last. -/
def State.appendTo (s : State) (id : StreamId) (item : Item) (late forced : Bool) : State :=
  let st := s.stream id
  let e : JournalEntry := ⟨item, late, forced, if st.dropped = 0 then none else some st.dropped⟩
  (s.setStream id { st with entries := st.entries ++ [e], dropped := 0 }).restartIdleTimer id

/-- A stream holds as many entries as it can (R132). -/
def State.streamFull (s : State) (id : StreamId) : Bool :=
  decide (streamCapacity ≤ (s.stream id).entries.length)

/-- R132, R138, R140, R142: written if the stream has room, dropped otherwise. -/
def State.writeTo (s : State) (id : StreamId) (item : Item) (late forced : Bool) : State :=
  if s.streamFull id then s.dropFor id else s.appendTo id item late forced

/-- R134, R161: a record is written to a latch slot. A hole marker has no such destination. -/
def State.latchTo (s : State) (n : SlotNo) (item : Item) (forced : Bool) : State :=
  match item with
  | .record r =>
    { s with journal := { s.journal with latches := s.journal.latches.set n.val (some ⟨r, forced, true⟩) } }
  | .hole _ => s

/-- R132 to R135, R140, R142: an entry that leaves the pool reaches its destinations. -/
def State.deliver (s : State) (e : PoolEntry) (late forced : Bool) : State :=
  match e.destination with
  | .stream id => s.writeTo id e.item late forced
  | .bothStreams => (s.writeTo .a e.item late forced).writeTo .b e.item late forced
  | .slot n => s.latchTo n e.item forced

/-! ### The horizon and release-through (R128, R129) -/

/-- The edge times of the pending states held. -/
def State.pendingTimes (s : State) : List Time :=
  s.capture.pendingEdges.toList.filterMap fun p => p.map (·.edgeTime)

/-- R84: the earlier of ST and the earliest edge time among the pending states. -/
def State.localHorizon (s : State) : Time := earliestOf s.st s.pendingTimes

/-- R112: the HW that a peer holds in the horizon, if any. -/
def State.heldWatermark (s : State) (i : Station) : Option Time :=
  if i ≠ s.own ∧ (s.entry i).state = .live then
    match s.seqEntry i with
    | some e => if e.next.isSome then some e.watermark else none
    | none => none
  else none

/-- R128: the horizon H. -/
def State.horizon (s : State) : Time :=
  earliestOf s.localHorizon
    ((List.finRange 32).filterMap s.heldWatermark ++ s.sequencer.gaps.map (·.bound))

/-- Set the release-through. -/
def State.setThrough (s : State) (t : Time) : State := { s with journal := { s.journal with through := t } }

/-- Replace the pooled entries. -/
def State.setPool (s : State) (p : List PoolEntry) : State := { s with journal := { s.journal with pool := p } }

/-- R becomes `t` if `t` is later than R (R129, R141). -/
def State.raiseThrough (s : State) (t : Time) : State :=
  if timeLater t s.journal.through then s.setThrough t else s

/-- R129: in ACTIVE and LEAVING, R follows H. -/
def State.followHorizon (s : State) : State :=
  if s.mode.working then s.raiseThrough s.horizon else s

/-- An entry is behind R. -/
def State.behind (s : State) (e : PoolEntry) : Bool := timeEarlier e.item.timestamp s.journal.through

/-- R133: a stream in HOLD mode holds as many entries as it can. -/
def State.holds (s : State) (id : StreamId) : Bool := (s.setup.stream id).mode == .hold && s.streamFull id

/-- R133, R135: an entry is held by a full stream in HOLD mode. -/
def State.held (s : State) (e : PoolEntry) : Bool :=
  match e.destination with
  | .stream id => s.holds id
  | .bothStreams => s.holds .a || s.holds .b
  | .slot _ => false

/-- R131: release, entry by entry, until the head is not behind R, the pool is empty or the head is held;
at most `n` entries. -/
def releaseUpTo : Nat → State → State
  | 0, s => s
  | n + 1, s =>
    match s.journal.pool with
    | [] => s
    | e :: rest =>
      if s.behind e && !s.held e then releaseUpTo n ((s.setPool rest).deliver e false false) else s

/-- R131, R146: release in ACTIVE and LEAVING; nothing otherwise. -/
def State.releaseReady (s : State) : State :=
  if s.mode.working then releaseUpTo s.journal.pool.length s else s

/-- R129, R131: R follows H and what is then behind R leaves the pool at once (log 7). -/
def State.settle (s : State) : State := s.followHorizon.releaseReady

/-! ### Arrival (R136 to R143) -/

/-- R136 step 1: a record with the same identity is pooled. -/
def State.pooledAlready (s : State) (e : PoolEntry) : Bool :=
  s.journal.pool.any fun x => e.item.sameRecord x.item

/-- R138 to R140: what becomes of a late entry. -/
def State.takeLate (s : State) (e : PoolEntry) : State :=
  match e.item, e.destination with
  | .hole _, _ => s.deliver e true false
  | .record _, .slot _ => s.count .lateDropped
  | .record _, .stream _ | .record _, .bothStreams =>
    match s.setup.latePolicy with
    | .deliver => s.deliver e true false
    | .drop => s.count .lateDropped

/-- R137. -/
def State.insert (s : State) (e : PoolEntry) : State := s.setPool (insertInOrder e s.journal.pool)

/-- R141 steps 1 to 3, R142: the head is forced out. -/
def State.forceHead (s : State) : State :=
  match s.journal.pool with
  | [] => s
  | h :: rest =>
    ((((s.setPool rest).deliver h false true).count .forcedReleases).raiseThrough (h.item.timestamp + 1)).releaseReady

/-- R143: the drop of an entry in LISTENING is counted by its destination. -/
def State.countListeningDrop (s : State) (e : PoolEntry) : State :=
  match e.destination with
  | .stream id => (s.count .forcedReleases).dropFor id
  | .bothStreams => ((s.count .forcedReleases).dropFor .a).dropFor .b
  | .slot _ => (s.count .forcedReleases).count .lateDropped

/-- R143: of the pooled entries and the arrival, the one that stands first is dropped. -/
def State.listeningDrop (s : State) (e : PoolEntry) : State :=
  match insertInOrder e s.journal.pool with
  | [] => s
  | first :: rest => (s.setPool rest).countListeningDrop first

/-- The pool holds as many entries as it can (R125). -/
def State.poolFull (s : State) : Bool := decide (poolCapacity ≤ s.journal.pool.length)

/-- R136: an entry arrives at the pool. In SETUP and STOPPED none does (R146). -/
def State.arrive (s : State) (e : PoolEntry) : State :=
  if s.pooledAlready e then s.count .duplicatesDiscarded
  else
    match s.mode with
    | .setup | .stopped => s
    | .listening => if s.poolFull then s.listeningDrop e else s.insert e
    | .active | .leaving =>
      if s.behind e then s.takeLate e
      else if s.poolFull then
        if s.forceHead.behind e then s.forceHead.takeLate e else s.forceHead.insert e
      else s.insert e

end Sys2Proof.Machine
end

