-- ==== Sys2Proof/Machine/Acceptance.lean ====
section
/-! DEFINITION. The acceptance unit (07): the event key, the rules, classification and urgent notes. -/

namespace Sys2Proof.Machine

/-- R115: station × 8192 + channel × 256 + code. -/
def Record.key (r : Record) : Key :=
  BitVec.ofNat 18 (r.station.val * 8192 + r.data.channel.val * 256 + r.data.code.toNat)

/-- R115: a rule matches a key. -/
def Rule.matchesKey (r : Rule) (k : Key) : Bool :=
  match r.kind with
  | .disabled => false
  | .range => decide (r.a ≤ k ∧ k ≤ r.b)
  | .pair => k == r.a || k == r.b
  | .masked => k &&& r.b == r.a &&& r.b

/-- R116: the first rule, in index order, that matches. -/
def State.firstRule (s : State) (k : Key) : Option Rule := s.setup.rules.toList.find? (·.matchesKey k)

/-- R119, R120: a note is appended, or dropped and counted while the queue is full. -/
def State.writeNote (s : State) (n : Note) : State :=
  if s.urgent.notes.length < noteCapacity then
    { s with urgent := { s.urgent with notes := s.urgent.notes ++ [n] } }
  else { s with urgent := { s.urgent with overflow := true } }.count .urgentOverflows

/-- R119: the note of a record that an urgent rule matches. -/
def Record.note (r : Record) (rule : Rule) : Note :=
  ⟨r.station, r.data.channel, r.data.code, r.seq, r.data.timestamp, rule.action, rule.slot⟩

/-- R118: the action decides where the record goes. -/
def State.route (s : State) (r : Record) (action : Action) (slot : SlotNo) : State :=
  match action with
  | .toA => s.arrive ⟨.record r, .stream .a⟩
  | .toB => s.arrive ⟨.record r, .stream .b⟩
  | .latch => s.arrive ⟨.record r, .slot slot⟩
  | .discard => s

/-- The default action as an action (R113). -/
def DefaultAction.toAction : DefaultAction → Action
  | .toA => .toA
  | .toB => .toB
  | .discard => .discard

/-- R116 to R119: a record is classified, noted if urgent, and routed. -/
def State.accept (s : State) (r : Record) : State :=
  match s.firstRule r.key with
  | some rule => (if rule.urgent then s.writeNote (r.note rule) else s).route r rule.action rule.slot
  | none => s.route r s.setup.defaultAction.toAction 0

end Sys2Proof.Machine
end

