-- ==== Sys2Proof/Machine/Frames.lean ====
section
/-! DEFINITION. Frames as bytes: the CRC (R5), the layouts of Tables 1-1 to 1-6 (R15), the checks of R11
and R12, and the bits of a frame in flight (R1, R3, R30). -/

namespace Sys2Proof.Machine

/-! ### Little-endian fields (00, Numbers and layouts) -/

/-- A number as `n` bytes, least significant first. -/
def leBytes : Nat → Nat → List Byte
  | 0, _ => []
  | n + 1, v => BitVec.ofNat 8 v :: leBytes n (v / 256)

/-- Take an `n`-byte field, least significant byte first, off the front of a run of bytes. -/
def takeField : Nat → List Byte → Option (Nat × List Byte)
  | 0, bs => some (0, bs)
  | _ + 1, [] => none
  | n + 1, b :: bs =>
    match takeField n bs with
    | some (v, rest) => some (b.toNat + 256 * v, rest)
    | none => none

/-! ### The CRC -/

/-- R5: one bit enters the register. -/
def crcBit (c : BitVec 16) (bit : Bool) : BitVec 16 :=
  if c.getLsbD 0 != bit then (c >>> 1) ^^^ 0x8408 else c >>> 1

/-- R5: a byte enters the register least significant bit first. -/
def crcByte (c : BitVec 16) (b : Byte) : BitVec 16 :=
  [0, 1, 2, 3, 4, 5, 6, 7].foldl (fun c i => crcBit c (b.getLsbD i)) c

/-- R5: the register after a run of bytes, started at all ones. -/
def crcOf (bs : List Byte) : BitVec 16 := bs.foldl crcByte 0xFFFF

/-! ### Composing bytes (Tables 1-1 to 1-6) -/

/-- R4 -/
def sync : Byte := 0xA7

/-- Bit `i` of a byte, when `b` holds. -/
def flagBit (b : Bool) (i : Nat) : Nat := if b then 2 ^ i else 0

/-- Table 1-6. -/
def EventData.toBytes (d : EventData) : List Byte :=
  BitVec.ofNat 8 (d.channel.val + flagBit d.value.isSome 5 + flagBit d.unsure 6 + flagBit d.loss.isSome 7)
    :: d.code :: leBytes 6 d.timestamp.toNat
    ++ (match d.value with | some v => leBytes 2 v.toNat | none => [])
    ++ (match d.loss with | some l => [l] | none => [])

/-- Table 1-4, one range. -/
def SeqRange.toBytes (r : SeqRange) : List Byte := leBytes 2 r.first.toNat ++ [r.count]

/-- Tables 1-2 to 1-5. -/
def Body.toBytes : Body → List Byte
  | .event wm first recs =>
    leBytes 6 wm.toNat ++ leBytes 2 first.toNat ++ BitVec.ofNat 8 recs.length :: recs.flatMap EventData.toBytes
  | .beacon wm next _ => leBytes 6 wm.toNat ++ leBytes 2 next.toNat
  | .request target inc ranges =>
    BitVec.ofNat 8 target.val :: inc :: BitVec.ofNat 8 ranges.length :: ranges.flatMap SeqRange.toBytes
  | .repeatRecords first recs =>
    leBytes 2 first.toNat ++ BitVec.ofNat 8 recs.length :: recs.flatMap EventData.toBytes
  | .repeatGone first count => leBytes 2 first.toNat ++ [count]

/-- R4: the kind number. -/
def Body.kind : Body → Nat
  | .event _ _ _ => 1
  | .beacon _ _ _ => 2
  | .request _ _ _ => 3
  | .repeatRecords _ _ => 4
  | .repeatGone _ _ => 4

/-- R4: the LEAVING flag. -/
def Body.isLeaving : Body → Bool
  | .beacon _ _ leaving => leaving
  | .event _ _ _ | .request _ _ _ | .repeatRecords _ _ | .repeatGone _ _ => false

/-- R4: the GONE flag. -/
def Body.isGone : Body → Bool
  | .repeatGone _ _ => true
  | .event _ _ _ | .beacon _ _ _ | .request _ _ _ | .repeatRecords _ _ => false

/-- R4, Table 1-1: the kind byte. -/
def Frame.kindByte (f : Frame) : Byte :=
  BitVec.ofNat 8 (f.body.kind + flagBit f.clockAgreed 3 + flagBit f.body.isLeaving 4 + flagBit f.body.isGone 5)

/-- The bytes the CRC covers: offsets 1 to 10 + n of Table 1-1. -/
def Frame.covered (f : Frame) : List Byte :=
  f.kindByte :: BitVec.ofNat 8 f.sender.val :: f.incarnation :: leBytes 6 f.sendStamp.toNat
    ++ BitVec.ofNat 8 f.body.toBytes.length :: f.body.toBytes

/-- R15, Table 1-1: a frame as the bytes on the line. -/
def Frame.toBytes (f : Frame) : List Byte :=
  sync :: f.covered ++ leBytes 2 (crcOf f.covered).toNat

/-! ### Reading bytes -/

/-- Table 1-6: take one record off the front. A record with HAS-LOSS and loss 0 is no record (R12). -/
def takeRecord (bs : List Byte) : Option (EventData × List Byte) :=
  match bs with
  | flags :: code :: rest =>
    match takeField 6 rest with
    | none => none
    | some (ts, rest) =>
      let channel : Channel := ⟨flags.toNat % 32, Nat.mod_lt _ (by decide)⟩
      match (if flags.getLsbD 5 then (takeField 2 rest).map fun (v, r) => (some (BitVec.ofNat 16 v), r)
             else some (none, rest)) with
      | none => none
      | some (value, rest) =>
        if flags.getLsbD 7 then
          match rest with
          | l :: rest =>
            if l = 0 then none
            else some (⟨channel, code, BitVec.ofNat 48 ts, flags.getLsbD 6, value, some l⟩, rest)
          | [] => none
        else some (⟨channel, code, BitVec.ofNat 48 ts, flags.getLsbD 6, value, none⟩, rest)
  | _ => none

/-- Take `n` records off the front. -/
def takeRecords : Nat → List Byte → Option (List EventData × List Byte)
  | 0, bs => some ([], bs)
  | n + 1, bs =>
    match takeRecord bs with
    | none => none
    | some (d, rest) =>
      match takeRecords n rest with
      | none => none
      | some (ds, rest) => some (d :: ds, rest)

/-- Take `n` ranges off the front. A range whose count is 0 is no range (R12). -/
def takeRanges : Nat → List Byte → Option (List SeqRange × List Byte)
  | 0, bs => some ([], bs)
  | n + 1, bs =>
    match takeField 2 bs with
    | some (first, count :: rest) =>
      if count = 0 then none
      else
        match takeRanges n rest with
        | none => none
        | some (rs, rest) => some (⟨BitVec.ofNat 16 first, count⟩ :: rs, rest)
    | _ => none

/-- R12: the body of an EVENT. -/
def readEvent (bs : List Byte) : Option Body :=
  match takeField 6 bs with
  | none => none
  | some (wm, rest) =>
    match takeField 2 rest with
    | some (first, count :: rest) =>
      if 1 ≤ count.toNat ∧ count.toNat ≤ recordsPerFrame then
        match takeRecords count.toNat rest with
        | some (recs, []) => some (.event (BitVec.ofNat 48 wm) (BitVec.ofNat 16 first) recs)
        | _ => none
      else none
    | _ => none

/-- R12: the body of a BEACON. -/
def readBeacon (leaving : Bool) (bs : List Byte) : Option Body :=
  match takeField 6 bs with
  | none => none
  | some (wm, rest) =>
    match takeField 2 rest with
    | some (next, []) => some (.beacon (BitVec.ofNat 48 wm) (BitVec.ofNat 16 next) leaving)
    | _ => none

/-- R12: the body of a REQUEST. -/
def readRequest (bs : List Byte) : Option Body :=
  match bs with
  | target :: inc :: count :: rest =>
    if h : target.toNat < 32 then
      if 1 ≤ count.toNat ∧ count.toNat ≤ rangesPerRequest then
        match takeRanges count.toNat rest with
        | some (ranges, []) => some (.request ⟨target.toNat, h⟩ inc ranges)
        | _ => none
      else none
    else none
  | _ => none

/-- R12: the body of a REPEAT, with or without GONE. -/
def readRepeat (gone : Bool) (bs : List Byte) : Option Body :=
  match takeField 2 bs with
  | some (first, count :: rest) =>
    if gone then
      if count ≠ 0 ∧ rest = [] then some (.repeatGone (BitVec.ofNat 16 first) count) else none
    else if 1 ≤ count.toNat ∧ count.toNat ≤ recordsPerFrame then
      match takeRecords count.toNat rest with
      | some (recs, []) => some (.repeatRecords (BitVec.ofNat 16 first) recs)
      | _ => none
    else none
  | _ => none

/-- R12: the body a good CRC delivers, by the kind byte; none where the contents break a rule. -/
def readBody (kind : Byte) (bs : List Byte) : Option Body :=
  let leaving := kind.getLsbD 4
  let gone := kind.getLsbD 5
  if kind.getLsbD 6 || kind.getLsbD 7 then none
  else
    match kind.toNat % 8 with
    | 1 => if leaving || gone then none else readEvent bs
    | 2 => if gone then none else readBeacon leaving bs
    | 3 => if leaving || gone then none else readRequest bs
    | 4 => if leaving then none else readRepeat gone bs
    | _ => none

/-- R11 checks 6 and 7 and R12, on the header's fields, the announced body and the two bytes after it. -/
def classifyContents (kind sender inc : Byte) (covered body trailer stamp : List Byte) : FrameClass :=
  if trailer ≠ leBytes 2 (crcOf covered).toNat then .crcFailed
  else if h : sender.toNat < 32 then
    match readBody kind body, takeField 6 stamp with
    | some b, some (st, _) => .good ⟨⟨sender.toNat, h⟩, inc, kind.getLsbD 3, BitVec.ofNat 48 st, b⟩
    | _, _ => .malformed ⟨sender.toNat, h⟩
  else .crcFailed

/-- R11 and R12: the class of a frame from the bytes read since the frame start and the framing-error
mark. -/
def classify (bs : List Byte) (framingError : Bool) : FrameClass :=
  if framingError then .crcFailed
  else
    match bs with
    | first :: kind :: sender :: inc :: s0 :: s1 :: s2 :: s3 :: s4 :: s5 :: len :: rest =>
      if first ≠ sync then .crcFailed
      else if rest.length < len.toNat + 2 then .cutShort
      else if len.toNat + 2 < rest.length then .crcFailed
      else
        classifyContents kind sender inc
          (kind :: sender :: inc :: s0 :: s1 :: s2 :: s3 :: s4 :: s5 :: len :: rest.take len.toNat)
          (rest.take len.toNat) (rest.drop len.toNat) [s0, s1, s2, s3, s4, s5]
    | _ => .cutShort

/-! ### Bits on the line -/

/-- R1, R3: the level of bit `i` of a run of bytes sent back to back, true for the idle level: a start bit, eight data
bits least significant first, a stop bit. -/
def lineBit (bs : List Byte) (i : Nat) : Bool :=
  match bs[i / 10]? with
  | none => true
  | some b =>
    if i % 10 = 0 then false
    else if i % 10 = 9 then true
    else b.getLsbD (i % 10 - 1)

/-- R3: the bits a frame of these bytes occupies the line for. -/
def frameBits (bs : List Byte) : Nat := 10 * bs.length

/-- R3, R38: driver-enable is active while a frame is in flight. -/
def State.driverEnable (s : State) : Bool := s.line.flight.isSome

/-- R3, R38: the level at the transmit-data output, true for the idle level. -/
def State.transmitData (s : State) : Bool :=
  match s.line.flight with
  | none => true
  | some f => lineBit f.frame.toBytes ((s.l - f.startL).toNat / s.setup.bitTime)

end Sys2Proof.Machine
end

