-- ==== Sys2Proof/Machine/Outbound.lean ====
section
/-! DEFINITION. The capture unit and the outbound side (05): own records, pending states, the announced
watermark, repeat jobs and the frames the outbound side composes. -/

namespace Sys2Proof.Machine

/-! ### Own records (R72 to R78) -/

/-- The clock state is AGREED (R51). -/
def State.clockAgreed (s : State) : Bool := s.clock.state == .agreed

/-- R77: an own record is created and handed to the acceptance unit. -/
def State.createOwn (s : State) (channel : Channel) (code : Byte) (timestamp : Time) (unsure : Bool)
    (value : Option (BitVec 16)) : State :=
  let loss := if s.capture.lossCount = 0 then none else some s.capture.lossCount
  let r : Record :=
    ⟨s.own, s.setup.incarnation, s.outbound.nextSeq, ⟨channel, code, timestamp, unsure, value, loss⟩⟩
  State.accept
    { s with
      capture := { s.capture with lossCount := 0 }
      outbound := { s.outbound with nextSeq := s.outbound.nextSeq + 1, outq := s.outbound.outq ++ [r] } }
    r

/-- R78: a capture confirmed with OUTQ full is lost. -/
def State.loseCapture (s : State) : State :=
  { s with capture := { s.capture with lossCount := saturate8 s.capture.lossCount } }.count .captureLost

/-- OUTQ holds as many records as it can (R80). -/
def State.outqFull (s : State) : Bool := decide (outqCapacity ≤ s.outbound.outq.length)

/-- R10: the channel of an event input. -/
def inputChannel (i : InputNo) : Channel := ⟨i.val, by omega⟩

/-- R74: the pending state of an input ends in its confirmation. -/
def State.confirmCapture (s : State) (i : InputNo) (p : PendingEdge) : State :=
  if (s.setPendingEdge i none).outqFull then (s.setPendingEdge i none).loseCapture
  else (s.setPendingEdge i none).createOwn (inputChannel i) (if p.level then 1 else 2) p.edgeTime (!p.agreed) none

/-- R72: the selection selects an edge to the level given. -/
def EdgeSelect.selects : EdgeSelect → Bool → Bool
  | .off, _ => false
  | .rise, level => level
  | .fall, level => !level
  | .both, _ => true

/-- R75: every pending state is cleared. -/
def State.clearPendingEdges (s : State) : State :=
  { s with capture := { s.capture with pendingEdges := Vector.replicate 16 none } }

/-! ### The announced watermark (R82) -/

/-- R82: the watermark of a frame that carries the first `carried` records of OUTQ. -/
def State.watermark (s : State) (carried : Nat) : Time :=
  earliestOf s.st (s.pendingTimes ++ (s.outbound.outq.drop carried).map (·.data.timestamp))

/-! ### The sent run and repeat jobs (R79, R87 to R89) -/

/-- R79: the first unsent sequence. -/
def Outbound.firstUnsent (o : Outbound) : Seq := o.nextSeq - BitVec.ofNat 16 o.outq.length

/-- R79: a sequence number lies in the sent run. -/
def Outbound.inSentRun (o : Outbound) (q : Seq) : Bool := decide ((o.firstUnsent - 1 - q).toNat < o.sentCount)

/-- The sequence numbers of a range, in order. -/
def SeqRange.numbers (r : SeqRange) : List Seq :=
  (List.range r.count.toNat).map fun k => r.first + BitVec.ofNat 16 k

/-- R87: the part of a range that lies in the sent run, if any. -/
def Outbound.cut (o : Outbound) (r : SeqRange) : Option SeqRange :=
  match r.numbers.filter o.inSentRun with
  | [] => none
  | q :: qs => some ⟨q, BitVec.ofNat 8 (qs.length + 1)⟩

/-- R88: a range lies wholly inside another. -/
def SeqRange.inside (r q : SeqRange) : Bool :=
  decide ((r.first - q.first).toNat + r.count.toNat ≤ q.count.toNat)

/-- R88: a cut range is queued, discarded, or dropped and counted. A range that is inside a queued one while the queue
holds 8 falls under both exceptions of R88; the first is taken, and nothing is counted (DESIGN CHOICE, log 31). -/
def State.addJob (s : State) (r : SeqRange) : State :=
  if s.outbound.jobs.any (r.inside ·) then s
  else if s.outbound.jobs.length < jobCapacity then
    { s with outbound := { s.outbound with jobs := s.outbound.jobs ++ [r] } }
  else s.count .jobsDropped

/-- R87: one range of a REQUEST that names this station. -/
def State.takeRange (s : State) (r : SeqRange) : State :=
  match s.outbound.cut r with
  | some c => s.addJob c
  | none => s

/-- R13 step 5, R87: the outbound side takes the ranges of a REQUEST that names the own station number. -/
def State.outboundTake (s : State) (f : Frame) : State :=
  match f.body with
  | .request target inc ranges =>
    if target = s.own ∧ inc = s.setup.incarnation then ranges.foldl State.takeRange s else s
  | .event _ _ _ | .beacon _ _ _ | .repeatRecords _ _ | .repeatGone _ _ => s

/-! ### Composing frames (R80, R85, R86, R88) -/

/-- The sequence number of a list's first record. -/
def firstSeqOf (rs : List Record) : Option Seq := rs.head?.map (·.seq)

/-- R80: the EVENT body of the oldest records of OUTQ. -/
def State.eventBody (s : State) (head : Record) : Body :=
  let recs := s.outbound.outq.take recordsPerFrame
  .event (s.watermark recs.length) head.seq (recs.map (·.data))

/-- R85, R86: the BEACON body. -/
def State.beaconBody (s : State) (leaving : Bool) : Body :=
  .beacon (s.watermark 0) s.outbound.nextSeq leaving

/-- R88: the REPEAT body of the front job. A history with no record, which no run reaches while a job is
queued, holds nothing of the job (log 28). -/
def State.repeatBody (s : State) (job : SeqRange) : Body :=
  match firstSeqOf s.outbound.history with
  | none => .repeatGone job.first job.count
  | some oldest =>
    if seqBelow job.first oldest then
      .repeatGone job.first (BitVec.ofNat 8 (min (oldest - job.first).toNat job.count.toNat))
    else
      .repeatRecords job.first
        (((s.outbound.history.drop (job.first - oldest).toNat).take (min recordsPerFrame job.count.toNat)).map
          (·.data))

/-! ### Completion of own frames (R81, R83, R85, R89) -/

/-- R81: the first `n` records leave OUTQ for history. -/
def Outbound.sendHead (o : Outbound) (n : Nat) : Outbound :=
  let sent := o.outq.take n
  let history := o.history ++ sent
  { o with
    outq := o.outq.drop n
    history := history.drop (history.length - historyCapacity)
    sentCount := min sentCountCap (o.sentCount + sent.length) }

/-- R89: the front job shrinks by `n`, and leaves the queue at 0. -/
def Outbound.shrinkJob (o : Outbound) (n : Nat) : Outbound :=
  match o.jobs with
  | [] => o
  | j :: rest =>
    if j.count.toNat ≤ n then { o with jobs := rest }
    else { o with jobs := ⟨j.first + BitVec.ofNat 16 n, j.count - BitVec.ofNat 8 n⟩ :: rest }

/-- R81, R83, R89: what the outbound side does at the completion of a frame of its own. -/
def Outbound.completed (o : Outbound) : Body → Outbound
  | .event wm _ recs => { o.sendHead recs.length with lastWatermark := wm }
  | .beacon wm _ _ => { o with lastWatermark := wm }
  | .request _ _ _ => o
  | .repeatRecords _ recs => o.shrinkJob recs.length
  | .repeatGone _ count => o.shrinkJob count.toNat

/-- R85: the beacon timer starts or restarts. -/
def State.restartBeaconTimer (s : State) : State :=
  { s with
    outbound :=
      { s.outbound with beaconTimer := some (s.l + millis s.setup.beaconInterval), beaconDue := false } }

end Sys2Proof.Machine
end

