-- ==== Sys2Proof/Machine/Receiver.lean ====
section
/-! DEFINITION. The receiver at the level of bits (01, Bytes on the line; 02, the idle time and the echo check): one
microsecond of L on the line. -/

namespace Sys2Proof.Machine

/-! ### The idle time (R2, R26) -/

/-- R26: the idle time restarts at 0. -/
def Line.restartIdle (n : Line) : Line :=
  { n with idle := 0, stopLeft := 0, rotations := 0, opportunityFloor := 0 }

/-- R26: a microsecond at rest: what is left of the last stop bit passes first, then the idle time grows. -/
def Line.rest (n : Line) : Line :=
  if 0 < n.stopLeft then { n with stopLeft := n.stopLeft - 1 } else { n with idle := n.idle + 1 }

/-- Set what the receiver is doing. -/
def Line.setPhase (n : Line) (p : Phase) : Line := { n with receiver := { n.receiver with phase := p } }

/-- R2, R26: a microsecond past a framing error, before the line's release is taken. What is left of the stop bit passes
first, also where the line is back at the idle level before its end (log 32); then the time for which the line has been
back is counted. -/
def Line.awaitRelease (n : Line) (rested : Nat) (level : Bool) : Line :=
  if 0 < n.stopLeft then { n with stopLeft := n.stopLeft - 1 }
  else n.setPhase (.held (if level then rested + 1 else 0))

/-- R1, R26, R28: the idle time over one microsecond. It grows while the line rests, and goes on growing past a fall
that is not confirmed; inside a byte it does not run, and outside one an active line keeps it at 0. Past a framing error
it stays where the byte left it, at 0, until the release is taken. -/
def Line.passIdle (n : Line) (level : Bool) : Line :=
  match n.receiver.phase with
  | .searching => if level then n.rest else n.restartIdle
  | .falling _ => n.rest
  | .reading _ _ _ => n
  | .held rested => n.awaitRelease rested level

/-! ### Bytes (R1) -/

/-- R1: the middle of bit `bit`, counted from the start bit, lies in the microsecond that begins at `l`. -/
def Fall.middleOf (f : Fall) (bitTime bit : Nat) (l : Time) : Bool :=
  (l - f.stampL).toNat == bit * bitTime + bitTime / 2

/-- R1: a receiver that looks for a fall finds one. -/
def Line.noticeFall (n : Line) (fell : Bool) (f : Fall) : Line :=
  match n.receiver.phase with
  | .searching => if fell then n.setPhase (.falling f) else n
  | .falling _ | .reading _ _ _ | .held _ => n

/-- R1, R2, R14: the line still active at the middle of a start bit begins a byte. The idle time stands as it stood at
the fall (R26), and at 0 in an own frame, whose frame start this is. -/
def Line.confirmStart (n : Line) (f : Fall) : Line :=
  match n.flight with
  | none => { n with idle := f.idle }.setPhase (.reading f 0 0)
  | some _ => n.restartIdle.setPhase (.reading { f with idle := 0 } 0 0)

/-- R1, R2, R26: a stop bit completes the byte, with a framing error if it reads active. A byte of an open frame is
kept. The idle time restarts at the end of the stop bit, half a bit later, and past a framing error at the line's release
if that comes after it; a release before that end leaves the restart at the end (DESIGN CHOICE, log 32). -/
def Line.completeByte (n : Line) (value : Byte) (stop : Bool) (bitTime : Nat) : Line :=
  { n.restartIdle with
    stopLeft := bitTime - bitTime / 2 - 1
    receiver :=
      { n.receiver with
        phase := if stop then .searching else .held 0
        bytes := if n.lineState = .idle then n.receiver.bytes else n.receiver.bytes ++ [value]
        framingError := n.receiver.framingError || (!stop && n.lineState != .idle) } }

/-- R1: data bit `i` of a byte under way. -/
def withBit (value : Byte) (i : Nat) (level : Bool) : Byte :=
  if level then value ||| BitVec.ofNat 8 (2 ^ i) else value

/-- R1: the receiver looks at the line in the microsecond that begins at `l`. A fall whose line is idle again at the
middle of the start bit was a glitch. -/
def Line.sample (n : Line) (bitTime : Nat) (l : Time) (level : Bool) : Line :=
  match n.receiver.phase with
  | .searching | .held _ => n
  | .falling f =>
    if f.middleOf bitTime 0 l then (if level then n.setPhase .searching else n.confirmStart f) else n
  | .reading f bits value =>
    if f.middleOf bitTime (bits + 1) l then
      if bits < 8 then n.setPhase (.reading f (bits + 1) (withBit value bits level))
      else n.completeByte value level bitTime
    else n

/-! ### An own frame in flight (R14, R30) -/

/-- R14: a byte of the own frame begins in the microsecond that begins at `l`, while every bit has read back as driven. -/
def Flight.byteBegins (f : Flight) (bitTime : Nat) (l : Time) : Bool :=
  f.mismatch.isNone && (l - f.startL).toNat % (10 * bitTime) == 0
    && decide ((l - f.startL).toNat / (10 * bitTime) < f.frame.toBytes.length)

/-- R14: in an own frame the start bits stand where the part drives them. -/
def Line.followOwn (n : Line) (bitTime : Nat) (fall : Fall) : Line :=
  match n.flight with
  | none => n
  | some f => if f.byteBegins bitTime fall.stampL then n.setPhase (.falling fall) else n

/-- R30: the first driven bit that reads back different. -/
def Flight.compare (f : Flight) (bitTime : Nat) (l : Time) (level : Bool) : Flight :=
  let passed := (l - f.startL).toNat
  let bit := passed / bitTime
  if f.mismatch = none ∧ passed % bitTime = bitTime / 2 ∧ bit < frameBits f.frame.toBytes
      ∧ lineBit f.frame.toBytes bit ≠ level then
    { f with mismatch := some bit }
  else f

/-- R30: line access compares the bit it drives with the bit read. -/
def Line.compareEcho (n : Line) (bitTime : Nat) (l : Time) (level : Bool) : Line :=
  { n with flight := n.flight.map fun f => f.compare bitTime l level }

/-! ### One microsecond -/

/-- R1, R14, R26, R30: the microsecond of L that begins at `l` with the idle time as it stands; `before` is the level read
in the microsecond before it, and `level` the one read in it. In SETUP and STOPPED nothing runs. -/
def Line.passMicrosecond (n : Line) (bitTime : Nat) (st l : Time) (before level : Bool) : Line :=
  if n.mode.onLine then
    ((((n.noticeFall (before && !level) ⟨st, l, n.idle⟩).followOwn bitTime ⟨st, l, n.idle⟩).passIdle level).sample
      bitTime l level).compareEcho bitTime l level
  else n

/-! ### The idle run (R2) -/

/-- R2: the length of a frame end, in bt. -/
def frameEndBits : Nat := 12

/-- R2, R33: the idle time that no fall still to be confirmed can take back (log 5). -/
def Line.settledIdle (n : Line) : Nat :=
  match n.receiver.phase with
  | .falling f => f.idle
  | .searching | .reading _ _ _ | .held _ => n.idle

/-- R2: the idle run, in microseconds, which stops growing at 12 bt. -/
def State.idleRun (s : State) : Nat := min s.line.settledIdle (frameEndBits * s.setup.bitTime)

/-- R2: the idle run has reached 12 bt. -/
def State.frameEndReached (s : State) : Bool := s.idleRun == frameEndBits * s.setup.bitTime

/-- R2: a start bit is confirmed that began when the idle run had reached 12 bt. -/
def State.frameStartFall (s : State) : Option Fall :=
  match s.line.receiver.phase with
  | .reading f _ _ => if frameEndBits * s.setup.bitTime ≤ f.idle then some f else none
  | .searching | .falling _ | .held _ => none

/-- R28: the line has carried no byte since the last frame end: no start bit is confirmed. -/
def Phase.waits : Phase → Bool
  | .searching | .falling _ => true
  | .reading _ _ _ | .held _ => false

end Sys2Proof.Machine
end

