-- ==== Sys2Proof/Machine/Clock.lean ====
section
/-! DEFINITION. The station clock (03): the increments of L and ST, the midpoint, the correction at an
agreement point and the clock states. -/

namespace Sys2Proof.Machine

/-- R40: one increment of L, with ST advancing or the increment withheld against the slew debt. -/
def Clock.increment (c : Clock) : Clock :=
  let l := c.l + 1
  if 0 < c.debt ∧ l.getLsbD 0 then { c with l := l, debt := c.debt - 1, uncorrected := none }
  else { c with l := l, st := c.st + 1, uncorrected := none }

/-- R42: ST as a fall of the receive-data line at this L latches it. Where an agreement point has been taken at this L, the
fall carries the corrected ST, or comes first and carries ST before the correction: a free choice (log 34). -/
def State.fallStamp (s : State) : Time :=
  match s.clock.uncorrected with
  | none => s.st
  | some before => if Config.fallFirst s.l then before else s.st

/-! ### Samples and the midpoint (R45, R46) -/

/-- R45: the sample of a peer's entry that the point may use. -/
def State.usableSample (s : State) (i : Station) : Option Sample :=
  if i ≠ s.own ∧ (s.entry i).state = .live then
    match (s.entry i).sample with
    | some m => if (s.l - m.time).toNat < 2 * (1000 * s.setup.agreementPeriod) then some m else none
    | none => none
  else none

/-- R45: the usable samples, by station number. -/
def State.usableSamples (s : State) : List Sample := (List.finRange 32).filterMap s.usableSample

/-- R45: samples of agreed senders are preferred. -/
def keptSamples (ms : List Sample) : List Sample := if ms.any (·.agreed) then ms.filter (·.agreed) else ms

/-- R45: a sample's working value takes out the last decision if the sample is older than it. -/
def Clock.workingValue (c : Clock) (m : Sample) : Int :=
  if timeEarlier m.time c.lastDecisionL then m.offset - c.lastDecision else m.offset

/-- Insert into a sorted list. -/
def insertSorted (x : Int) : List Int → List Int
  | [] => [x]
  | y :: ys => if x ≤ y then x :: y :: ys else y :: insertSorted x ys

/-- R46 step 1. -/
def sortValues : List Int → List Int
  | [] => []
  | x :: xs => insertSorted x (sortValues xs)

/-- R46 step 2. -/
def trimValues (vs : List Int) : List Int := if 4 ≤ vs.length then vs.tail.dropLast else vs

/-- R46: the midpoint of the working values, rounded toward zero; none without a value. -/
def midpoint (vs : List Int) : Option Int :=
  match (trimValues (sortValues vs)).head?, (trimValues (sortValues vs)).getLast? with
  | some lo, some hi => some (Int.tdiv (lo + hi) 2)
  | _, _ => none

/-- R45, R46: the midpoint m of an agreement point. -/
def State.pointMidpoint (s : State) : Option Int :=
  midpoint ((keptSamples s.usableSamples).map s.clock.workingValue)

/-! ### Corrections (R47, R48) -/

/-- R47: in LISTENING, ST jumps by m. -/
def Clock.jump (c : Clock) (m : Option Int) : Clock :=
  match m with
  | some m =>
    { c with st := c.st + BitVec.ofInt 48 m, lastM := m, lastDecision := m, lastDecisionL := c.l }
  | none => { c with lastDecision := 0, lastDecisionL := c.l }

/-- R48: m clamped to the step limit. -/
def clampStep (limit : Nat) (m : Int) : Int := max (-(limit : Int)) (min (limit : Int) m)

/-- R48: the amount by which D rises for a clamped value below 0. -/
def Clock.debtRise (c : Clock) (limit : Nat) (m : Int) : Nat := min (clampStep limit m).natAbs (4 * limit - c.debt)

/-- R48: in ACTIVE and LEAVING, ST steps forward or D rises. -/
def Clock.stepOrDebt (c : Clock) (limit : Nat) (m : Option Int) : Clock :=
  match m with
  | none => { c with lastDecision := 0, lastDecisionL := c.l }
  | some m =>
    if 0 < clampStep limit m then
      { c with
        st := c.st + BitVec.ofInt 48 (clampStep limit m)
        lastM := m, lastDecision := clampStep limit m, lastDecisionL := c.l }
    else if clampStep limit m < 0 then
      { c with
        debt := c.debt + c.debtRise limit m
        lastM := m, lastDecision := -(c.debtRise limit m : Int), lastDecisionL := c.l }
    else { c with lastM := m, lastDecision := 0, lastDecisionL := c.l }

/-! ### Clock states (R49, R50) -/

/-- R49: the three kinds of agreement point. -/
inductive PointKind where
  | good
  | bad
  | alone
  | neutral
  deriving DecidableEq, Repr

/-- R49: some other station's entry is LIVE. -/
def State.peerLive (s : State) : Bool :=
  (List.finRange 32).any fun i => i != s.own && (s.entry i).state == .live

/-- R49: the kind of the point, decided from the usable samples. -/
def State.pointKind (s : State) : PointKind :=
  match s.pointMidpoint with
  | some m => if m.natAbs ≤ s.setup.precisionBound then .good else .bad
  | none => if s.peerLive then .neutral else .alone

/-- R49, R50: the counts and the clock state after a point with midpoint `m`. -/
def Clock.advanceState (c : Clock) (kind : PointKind) (m : Option Int) (bound : Nat) : Clock :=
  match kind, c.state with
  | .neutral, _ => c
  | .good, .free | .bad, .free => { c with state := .converging, goodPoints := 0, alonePoints := 0 }
  | .good, .converging =>
    if 3 ≤ c.goodPoints + 1 then { c with state := .agreed, goodPoints := 0, alonePoints := 0 }
    else { c with goodPoints := c.goodPoints + 1, alonePoints := 0 }
  | .bad, .converging => { c with goodPoints := 0, alonePoints := 0 }
  | .good, .agreed | .bad, .agreed =>
    if 4 * bound < (m.getD 0).natAbs then { c with state := .converging, goodPoints := 0, alonePoints := 0 }
    else { c with goodPoints := 0, alonePoints := 0 }
  | .alone, .free | .alone, .converging =>
    if 3 ≤ c.alonePoints + 1 then { c with state := .agreed, goodPoints := 0, alonePoints := 0 }
    else { c with goodPoints := 0, alonePoints := c.alonePoints + 1 }
  | .alone, .agreed => { c with goodPoints := 0, alonePoints := 0 }

/-- R47, R48: the correction of a point, by the station mode. -/
def State.corrected (s : State) : Clock :=
  if s.mode = .listening then s.clock.jump s.pointMidpoint
  else s.clock.stepOrDebt s.setup.stepLimit s.pointMidpoint

/-- R44 to R50: the clock after the work of an agreement point that falls at `point`; the first-point mark
is set last. -/
def State.clockAfterPoint (s : State) (point : Time) : Clock :=
  { s.corrected.advanceState s.pointKind s.pointMidpoint s.setup.precisionBound with
    nextPoint := some (point + millis s.setup.agreementPeriod), firstPoint := true, uncorrected := some s.st }

/-- R44 to R52: the work of an agreement point. -/
def State.takePoint (s : State) (point : Time) : State :=
  { s with
    clock := s.clockAfterPoint point
    clockChanged := s.clockChanged || (s.clockAfterPoint point).state != s.clock.state }

/-! ### Offset samples (R43) -/

/-- R43: the difference of two stamps modulo 2^48, read as a signed number. -/
def signedDifference (a b : Time) : Int := (a - b).toInt

/-- R43: the offset sample of a frame. -/
def State.offsetSample (s : State) (sendStamp receiveStamp receiveL : Time) (agreed : Bool) : Sample :=
  ⟨signedDifference sendStamp receiveStamp + s.setup.delayCompensation, receiveL, agreed⟩

end Sys2Proof.Machine
end

