-- ==== Sys2Proof/Machine/Sequencer.lean ====
section
/-! DEFINITION. The sequencer (06): holes, gaps, the sorting of arriving records, suppression, GONE
ranges, REQUEST frames and the roster's reports. -/

namespace Sys2Proof.Machine

/-! ### Gaps -/

/-- A sequence number lies in a gap. -/
def Gap.contains (g : Gap) (q : Seq) : Bool := decide ((q - g.first).toNat < g.count)

/-- The last sequence number of a gap. -/
def Gap.last (g : Gap) : Seq := g.first + BitVec.ofNat 16 g.count - 1

/-- The part of a gap from offset `lo`, `n` numbers long, with its tries set to 0; none when `n` is 0
(R100, R101, R107). -/
def Gap.part (g : Gap) (lo n : Nat) : List Gap :=
  if n = 0 then [] else [{ g with first := g.first + BitVec.ofNat 16 lo, count := n, tries := 0 }]

/-- Replace the first element that satisfies `p` by a list. -/
def replaceFirst {α : Type} (p : α → Bool) (by' : α → List α) : List α → List α
  | [] => []
  | x :: xs => if p x then by' x ++ xs else x :: replaceFirst p by' xs

/-- R97: the table order, by station and within a station by age: a new gap of a station lies above its
open ones. -/
def insertGap (g : Gap) : List Gap → List Gap
  | [] => [g]
  | x :: xs => if g.station < x.station then g :: x :: xs else x :: insertGap g xs

/-- The gap is the one of a station with the first sequence given. -/
def Gap.isAt (g : Gap) (station : Station) (first : Seq) : Bool := g.station == station && g.first == first

/-! ### Hole markers (R110, R111) -/

/-- R111: the destination of hole markers. -/
def State.holeDestination (s : State) : Destination :=
  if s.setup.holesToB then .bothStreams else .stream .a

/-- R110, R111: a range closed unfilled makes one hole marker, which goes to the pool. -/
def State.makeHole (s : State) (h : Hole) : State :=
  (s.count .holesCreated).arrive ⟨.hole h, s.holeDestination⟩

/-- R110: the hole of a whole gap. -/
def Gap.hole (g : Gap) (reason : HoleReason) : Hole :=
  ⟨g.station, g.incarnation, g.first, g.count, reason, g.bound⟩

/-- R110: every gap that `p` selects is closed, in table order. -/
def State.closeGaps (s : State) (p : Gap → Bool) (reason : HoleReason) : State :=
  (s.sequencer.gaps.filter p).foldl (fun s g => s.makeHole (g.hole reason))
    (s.setGaps (s.sequencer.gaps.filter fun g => !p g))

/-! ### Opening gaps (R97 to R99) -/

/-- R97: a missing run of `station` opens a gap, or closes at once as a BEYOND or a NO-ROOM hole. The gap is
due from the opening, for its deadline is L at the opening (R102, DEDUCED, log 12). -/
def State.openRun (s : State) (station : Station) (e : SeqEntry) (first : Seq) (run : Nat) : State :=
  if longestGap < run then s.makeHole ⟨station, e.incarnation, first, longestGap, .beyond, e.watermark⟩
  else if gapCapacity ≤ s.sequencer.gaps.length then
    s.makeHole ⟨station, e.incarnation, first, run, .noRoom, e.watermark⟩
  else
    s.setGaps
      (insertGap ⟨station, e.incarnation, first, run, e.watermark, 0, s.l, .waiting, true⟩ s.sequencer.gaps)

/-- R98: a gap of `station` lies 32,768 or more positions below NE. -/
def Gap.beyond (g : Gap) (station : Station) (next : Seq) : Bool :=
  g.station == station && decide (32768 ≤ (next - g.first).toNat)

/-- R95, R98, R99: NE advances, and gaps it leaves too far below are closed. -/
def State.advanceNext (s : State) (station : Station) (next : Seq) : State :=
  match s.seqEntry station with
  | none => s
  | some e => (s.setSeqEntry station (some { e with next := some next })).closeGaps (·.beyond station next) .beyond

/-! ### Sorting records (R95, R100, R101) -/

/-- R100, R101: what is left of a gap after a filler, when the filler can be taken; the table holds
`held` gaps. -/
def Gap.fill (g : Gap) (q : Seq) (held : Nat) : Option (List Gap) :=
  if q = g.first then some (g.part 1 (g.count - 1))
  else if q = g.last then some (g.part 0 (g.count - 1))
  else if held < gapCapacity then
    some (g.part 0 (q - g.first).toNat ++ g.part ((q - g.first).toNat + 1) (g.count - 1 - (q - g.first).toNat))
  else none

/-- R95, R100, R101: a record below NE, filler or duplicate. -/
def State.takeOld (s : State) (r : Record) : State :=
  match s.sequencer.gaps.find? fun g => g.station == r.station && g.contains r.seq with
  | none => s.count .duplicatesDiscarded
  | some g =>
    match g.fill r.seq s.sequencer.gaps.length with
    | none => s
    | some parts =>
      (s.setGaps
        (replaceFirst (fun g => g.station == r.station && g.contains r.seq) (fun _ => parts)
          s.sequencer.gaps)).accept r

/-- R95: one record against the sender's entry and the gap table. -/
def State.takeRecord (s : State) (r : Record) : State :=
  match s.seqEntry r.station with
  | none => s
  | some e =>
    match e.next with
    | none => s
    | some ne =>
      if r.seq = ne then (s.advanceNext r.station (r.seq + 1)).accept r
      else if seqAbove r.seq ne then
        ((s.openRun r.station e ne (r.seq - ne).toNat).advanceNext r.station (r.seq + 1)).accept r
      else s.takeOld r

/-- R94, R95: the records of a frame, with consecutive sequence numbers from `first`. -/
def State.takeRecords (s : State) (station : Station) (inc : Byte) (first : Seq) : List EventData → State
  | [] => s
  | d :: ds => (s.takeRecord ⟨station, inc, first, d⟩).takeRecords station inc (first + 1) ds

/-! ### Watermarks (R93, R96) -/

/-- R93: NE and HW are set from the first EVENT or BEACON of an incarnation. -/
def SeqEntry.start (e : SeqEntry) (next : Seq) (wm : Time) : SeqEntry :=
  match e.next with
  | none => { e with next := some next, watermark := wm }
  | some _ => e

/-- R96: the later of HW and a frame's watermark. HW does not decrease: it stays unless the watermark is later. -/
def laterOf (held wm : Time) : Time := if timeLater wm held then wm else held

/-- R96: HW becomes the later of its value and the frame's watermark. -/
def State.raiseWatermark (s : State) (station : Station) (wm : Time) : State :=
  match s.seqEntry station with
  | none => s
  | some e => s.setSeqEntry station (some { e with watermark := laterOf e.watermark wm })

/-! ### Suppression and GONE ranges (R106, R107) -/

/-- R107: the part of a range of `n` numbers from `first` inside a gap: its offset in the gap and its
length. -/
def Gap.overlap (g : Gap) (first : Seq) (n : Nat) : Option (Nat × Nat) :=
  let into := (first - g.first).toNat
  let ahead := (g.first - first).toNat
  if 0 < n ∧ into < g.count then some (into, min n (g.count - into))
  else if ahead < n then some (0, min g.count (n - ahead))
  else none

/-- R106: a REQUEST affects a gap. -/
def Gap.affectedBy (g : Gap) (target : Station) (inc : Byte) (ranges : List SeqRange) : Bool :=
  g.station == target && g.incarnation == inc && (g.due || g.state == .waiting)
    && ranges.any fun r => (g.overlap r.first r.count.toNat).isSome

/-- Count an event `n` times. -/
def State.countTimes (s : State) (c : Counter) : Nat → State
  | 0 => s
  | n + 1 => (s.count c).countTimes c n

/-- R106: another station's REQUEST pushes the deadlines of the gaps it affects. -/
def State.suppress (s : State) (target : Station) (inc : Byte) (ranges : List SeqRange) : State :=
  (s.setGaps (s.sequencer.gaps.map fun g =>
      if g.affectedBy target inc ranges then
        { g with deadline := s.l + millis s.setup.requestTimeout, due := false }
      else g)).countTimes .requestsSuppressed
    (s.sequencer.gaps.filter (·.affectedBy target inc ranges)).length

/-- R107: a GONE range applied to one gap. -/
def State.goneGap (s : State) (first : Seq) (n : Nat) (g : Gap) : State :=
  match g.overlap first n with
  | none => s
  | some (lo, len) =>
    let above := g.count - (lo + len)
    if lo ≠ 0 ∧ above ≠ 0 ∧ gapCapacity ≤ s.sequencer.gaps.length then s
    else
      (s.setGaps
        (replaceFirst (·.isAt g.station g.first) (fun _ => g.part 0 lo ++ g.part (lo + len) above)
          s.sequencer.gaps)).makeHole
        ⟨g.station, g.incarnation, g.first + BitVec.ofNat 16 lo, len, .gone, g.bound⟩

/-- R107: a GONE range applied to the sender's open gaps, in table order. -/
def State.takeGone (s : State) (station : Station) (first : Seq) (n : Nat) : State :=
  (s.sequencer.gaps.filter (·.station == station)).foldl (fun s g => s.goneGap first n g) s

/-! ### Taking a frame (R94) -/

/-- R99: a BEACON taken with NE set. -/
def State.trailing (s : State) (station : Station) (e : SeqEntry) (ne next : Seq) : State :=
  if seqAbove next ne then (s.openRun station e ne (next - ne).toNat).advanceNext station next else s

/-- R94: the sequencer takes a frame whose sender has a present entry. -/
def State.takeBody (s : State) (f : Frame) (e : SeqEntry) : State :=
  match f.body with
  | .event wm first recs =>
    ((s.setSeqEntry f.sender (some (e.start first wm))).takeRecords f.sender f.incarnation first
      recs).raiseWatermark f.sender wm
  | .beacon wm next _ =>
    match e.next with
    | none => s.setSeqEntry f.sender (some (e.start next wm))
    | some ne => (s.trailing f.sender e ne next).raiseWatermark f.sender wm
  | .request target inc ranges => s.suppress target inc ranges
  | .repeatRecords first recs =>
    if e.next.isSome then s.takeRecords f.sender f.incarnation first recs else s
  | .repeatGone first count => if e.next.isSome then s.takeGone f.sender first count.toNat else s

/-- R93, R94: the sequencer takes a GOOD frame from another station. -/
def State.sequencerTake (s : State) (f : Frame) : State :=
  match s.seqEntry f.sender with
  | none => s
  | some e => s.takeBody f e

/-! ### The roster's reports (R69, R92, R108, R109) -/

/-- R92: a first frame makes the entry present, with NE unset. -/
def State.tellFirstFrame (s : State) (i : Station) (inc : Byte) : State := s.setSeqEntry i (some ⟨inc, none, 0⟩)

/-- R108: a restart closes the gaps of the old incarnation and resets the entry. -/
def State.tellRestart (s : State) (i : Station) (newInc : Byte) : State :=
  (s.closeGaps (·.station == i) .restart).setSeqEntry i (some ⟨newInc, none, 0⟩)

/-- R109: a join lapse, an expel or a leave closes the gaps of the station and clears the entry. -/
def State.tellGone (s : State) (i : Station) : State :=
  (s.closeGaps (·.station == i) .left).setSeqEntry i none

/-! ### Requests and deadlines (R102 to R105) -/

/-- R103: the due gap whose deadline is earliest; of several, the first in table order. -/
def earliestDue (gaps : List Gap) : Option Gap :=
  match gaps.filter (·.due) with
  | [] => none
  | g :: rest =>
    (g :: rest).find? fun x => x.deadline == earliestOf g.deadline (rest.map (·.deadline))

/-- R103: the due gaps of a station that one REQUEST carries. -/
def State.requestGaps (s : State) (i : Station) : List Gap :=
  (s.sequencer.gaps.filter fun g => g.due && g.station == i).take rangesPerRequest

/-- R103: the range of a gap in a REQUEST. -/
def Gap.range (g : Gap) : SeqRange := ⟨g.first, BitVec.ofNat 8 (min g.count 255)⟩

/-- R103: the REQUEST the sequencer composes, with the gaps it covers, if a gap is due. -/
def State.requestBody (s : State) : Option (Body × List (Station × Seq)) :=
  match earliestDue s.sequencer.gaps with
  | none => none
  | some g =>
    some (.request g.station g.incarnation ((s.requestGaps g.station).map (·.range)),
      (s.requestGaps g.station).map fun g => (g.station, g.first))

/-- R104: a REQUEST that covers these gaps completes. -/
def State.requestCompleted (s : State) (covered : List (Station × Seq)) : State :=
  s.setGaps (s.sequencer.gaps.map fun g =>
    if covered.contains (g.station, g.first) then
      { g with
        tries := g.tries + 1
        state := .requested
        deadline := s.l + millis s.setup.requestTimeout
        due := false }
    else g)

/-- R105: a gap whose deadline comes becomes due, or closes as a NO-ANSWER hole. -/
def State.takeDeadline (s : State) (g : Gap) : State :=
  if g.tries < s.setup.maxTries then
    s.setGaps (replaceFirst (·.isAt g.station g.first) (fun g => [{ g with due := true }]) s.sequencer.gaps)
  else
    (s.setGaps
      (replaceFirst (·.isAt g.station g.first) (fun _ => []) s.sequencer.gaps)).makeHole (g.hole .noAnswer)

end Sys2Proof.Machine
end

