-- ==== Sys2Proof/Machine/Roster.lean ====
section
/-! DEFINITION. The roster (04): taking a frame, the silence and expel expiries, the own entry. -/

namespace Sys2Proof.Machine

/-- R55 step 2: the refresh, with the receive stamp and its L. The incarnation is kept. -/
def State.refreshed (s : State) (f : Frame) (stamp stampL : Time) (e : RosterEntry) : RosterEntry :=
  { e with
    lastHeard := stamp
    heardAt := s.l
    sample := some (s.offsetSample f.sendStamp stamp stampL f.clockAgreed) }

/-- R62: the entry becomes ABSENT with its mark set, and the sequencer is told of the leave. -/
def State.peerLeaves (s : State) (i : Station) : State :=
  (s.setEntry i { s.entry i with state := .absent, mark := true }).tellGone i

/-- R56, R62: a frame from a station whose entry is ABSENT. -/
def State.takeFromAbsent (s : State) (f : Frame) (stamp stampL : Time) : State :=
  let e : RosterEntry :=
    { s.refreshed f stamp stampL (s.entry f.sender) with incarnation := f.incarnation }
  if f.body.isLeaving then s.setEntry f.sender e
  else (s.setEntry f.sender { e with state := .joining, mark := true }).tellFirstFrame f.sender f.incarnation

/-- R61: a frame of another incarnation. -/
def State.takeNewIncarnation (s : State) (f : Frame) (stamp stampL : Time) : State :=
  let t := s.tellRestart f.sender f.incarnation
  (t.setEntry f.sender
      { s.refreshed f stamp stampL (s.entry f.sender) with
        incarnation := f.incarnation, state := .joining, mark := true }).tellFirstFrame
    f.sender f.incarnation

/-- R57, R59: a frame of the entry's own incarnation. -/
def State.takeSameIncarnation (s : State) (f : Frame) (stamp stampL : Time) : State :=
  let e := s.refreshed f stamp stampL (s.entry f.sender)
  s.setEntry f.sender { e with state := .live, mark := e.mark || (s.entry f.sender).state != .live }

/-- R55: the roster takes a GOOD frame from another station. -/
def State.rosterTake (s : State) (f : Frame) (stamp stampL : Time) : State :=
  if (s.entry f.sender).state = .absent then s.takeFromAbsent f stamp stampL
  else
    let t :=
      if (s.entry f.sender).incarnation = f.incarnation then s.takeSameIncarnation f stamp stampL
      else s.takeNewIncarnation f stamp stampL
    if f.body.isLeaving then t.peerLeaves f.sender else t

/-- R58: the silence timer of a JOINING or LIVE entry has run out. -/
def State.silenceDue (s : State) (i : Station) : Bool :=
  reached s.l ((s.entry i).heardAt + millis s.setup.silenceTimeout)

/-- R58: the expel timer has run out. -/
def State.expelDue (s : State) (i : Station) : Bool :=
  reached s.l ((s.entry i).heardAt + millis s.setup.expelTimeout)

/-- R58: JOINING to ABSENT (join lapse), told to the sequencer. -/
def State.joinLapse (s : State) (i : Station) : State :=
  (s.setEntry i { s.entry i with state := .absent, mark := true }).tellGone i

/-- R58: LIVE to SILENT, told to no one. -/
def State.fallSilent (s : State) (i : Station) : State :=
  s.setEntry i { s.entry i with state := .silent, mark := true }

/-- R60: SILENT to ABSENT (expel), told to the sequencer. -/
def State.expel (s : State) (i : Station) : State :=
  (s.setEntry i { s.entry i with state := .absent, mark := true }).tellGone i

/-- R64: the own entry at the entry to ACTIVE. -/
def State.ownEntryLive (s : State) : State :=
  s.setEntry s.own
    { s.entry s.own with state := .live, incarnation := s.setup.incarnation, lastHeard := s.st }

/-- R64: the own entry at the entry to STOPPED. -/
def State.ownEntryAbsent (s : State) : State := s.setEntry s.own { s.entry s.own with state := .absent }

/-- R64: the own entry at the completion of an own frame. -/
def State.ownEntryHeard (s : State) (stamp : Time) : State :=
  s.setEntry s.own { s.entry s.own with lastHeard := stamp }

end Sys2Proof.Machine
end

