-- ==== Sys2Proof/Machine/LineAccess.lean ====
section
/-! DEFINITION. Line access (02): the modes, the ranks and opportunities, the own arbiter, the
outcome of an own frame, and what is done at a frame end; and the session clearing every block shares. -/

namespace Sys2Proof.Machine

/-! ### Session clearing (R19, R23, R41, R54, R79, R92, R124, R127, R148, R160, R184) -/

/-- R41: the clock after RESTART: ST takes the value of L. -/
def Clock.restarted (c : Clock) : Clock := { Clock.initial with l := c.l, st := c.l }

/-- R75, R79: the capture unit after RESTART: the sampled levels are kept. -/
def Capture.restarted (c : Capture) : Capture := { Capture.initial with levels := c.levels, sampled := c.sampled }

/-- R184, R23: what RESTART and the end of LEAVING do. The setup values and the transaction are kept. -/
def State.endSession (s : State) : State :=
  { State.reset with
    pending := s.pending
    setup := s.setup
    clock := s.clock.restarted
    capture := s.capture.restarted
    host := s.host
    receiveData := s.receiveData }

/-! ### Ranks, opportunities and rotations (R27, R28, R33) -/

/-- R27: the own rank. -/
def State.rank (s : State) : Nat :=
  match s.line.reference with
  | some r => (s.own - r - 1).val
  | none => s.own.val

/-- R28: the idle time, in microseconds, of the first opportunity of a rotation. -/
def State.firstOpportunity (s : State) : Nat := (16 + s.rank * s.setup.slotWidth) * s.setup.bitTime

/-- R28: the microseconds between opportunities. -/
def State.rotationLength (s : State) : Nat := 32 * s.setup.slotWidth * s.setup.bitTime

/-- R28: the idle time stands at an opportunity that has not passed, and no start bit is confirmed. -/
def State.atOpportunity (s : State) : Bool :=
  s.mode.onLine && s.line.receiver.phase.waits && decide (s.firstOpportunity ≤ s.line.idle)
    && (s.line.idle - s.firstOpportunity) % s.rotationLength == 0
    && decide (s.line.opportunityFloor ≤ s.line.idle)

/-- R33: the idle time of the next empty rotation not yet counted. -/
def State.nextRotation (s : State) : Nat :=
  (16 + 32 * s.setup.slotWidth * (s.line.rotations + 1)) * s.setup.bitTime

/-! ### The own arbiter (R22, R29) -/

/-- R29: the body of the frame due, with the gaps a REQUEST covers. -/
def State.arbitrate (s : State) : Option (Body × List (Station × Seq)) :=
  match (if s.mode = .active then s.requestBody else none) with
  | some r => some r
  | none =>
    match s.outbound.jobs with
    | job :: _ => some (s.repeatBody job, [])
    | [] =>
      match s.outbound.outq with
      | head :: _ => some (s.eventBody head, [])
      | [] =>
        if s.mode = .leaving then some (s.beaconBody true, [])
        else if s.mode = .active ∧ s.outbound.beaconDue then some (s.beaconBody false, [])
        else none

/-- R28: the station may begin a frame. -/
def State.maySend (s : State) : Bool :=
  s.mode.working && s.line.lineState == .idle && s.line.transmitter == .ready

/-- R3, R4, R51: the header of an own frame started now. -/
def State.composeFrame (s : State) (body : Body) : Frame :=
  ⟨s.own, s.setup.incarnation, s.clockAgreed, s.st, body⟩

/-- R2: the receiver at a frame start at the fall `f`, with what it is doing. -/
def Receiver.openAt (p : Phase) (f : Fall) : Receiver :=
  { Receiver.initial with phase := p, stamp := f.stamp, stampL := f.stampL }

/-- The fall of the line at this instant. -/
def State.fallNow (s : State) : Fall := ⟨s.st, s.l, s.line.idle⟩

/-- R3, R14, R28: the SYNC start bit of an own frame falls. A fall not confirmed before it is set aside. -/
def State.startFrame (s : State) (body : Body) (covered : List (Station × Seq)) : State :=
  { s with
    line :=
      { s.line with
        lineState := .transmitting
        receiver := .openAt (.falling s.fallNow) s.fallNow
        flight := some ⟨s.composeFrame body, s.l, covered, none⟩ } }

/-! ### Outcome of an own frame (R31, R32, R34) -/

/-- R31: the line counters of a completed frame. -/
def State.countCompleted (s : State) : Body → State
  | .request _ _ _ => s.count .requestsSent
  | .repeatRecords _ _ | .repeatGone _ _ => s.count .repeatsSent
  | .event _ _ _ | .beacon _ _ _ => s

/-- R14, R31: line access at a completion. What the receiver has read beyond the frame is surplus. -/
def Line.completeFlight (n : Line) (f : Flight) : Line :=
  { n with
    failures := 0
    flight := none
    receiver := { n.receiver with bytes := n.receiver.bytes.drop f.frame.toBytes.length } }

/-- R31: line access, the sources, the beacon timer and the own entry at a completion. -/
def State.completeFrame (s : State) (f : Flight) : State :=
  let t :=
    { s with
      line := s.line.completeFlight f
      outbound := s.outbound.completed f.frame.body }
  (((t.requestCompleted f.covered).countCompleted f.frame.body).restartBeaconTimer).ownEntryHeard
    f.frame.sendStamp

/-- R32, R34: the transmitter after a failed attempt. -/
def Line.failTransmitter (n : Line) : Line :=
  if n.failures + 1 < muteFailures then
    { n with transmitter := .backoff, failures := n.failures + 1, backoff := min (n.failures + 1) backoffCap }
  else { n with transmitter := .mute, failures := muteFailures, backoff := 0, goodRun := 0 }

/-- R14, R32: line access at a mismatch in bit `bit`. The receiver goes on with the byte under way; one in the SYNC start bit
opens no frame. A mismatch in the start bit of a later byte is a start bit that reads idle: no byte begins there, and the
open frame goes on without that byte, where R14 keeps the byte in which the mismatch was read (DESIGN CHOICE, log 22). -/
def Line.failAttempt (n : Line) (bit : Nat) : Line :=
  let n := n.failTransmitter
  if bit = 0 then
    { n with
      lineState := .idle
      flight := none
      receiver := { Receiver.initial with phase := n.receiver.phase }
      skipFrameEnd := false }
  else { n with lineState := .receiving, flight := none, skipFrameEnd := true }

/-! ### Mode transitions (R20, R21, R22, R24) -/

/-- R21, R130: ACTIVE begins once both conditions are met. -/
def State.tryActive (s : State) : State :=
  if s.mode = .listening ∧ s.clock.firstPoint ∧ s.line.observed then
    (({ s with line := { s.line with mode := .active } }).setThrough s.st).ownEntryLive
  else s

/-- R21: the line-observed mark is set. -/
def State.observe (s : State) : State := { s with line := { s.line with observed := true } }

/-- R24, R25, R44, R64, R75, R90: the mode becomes STOPPED, and the receiver takes no bytes. -/
def State.stop (s : State) : State :=
  { s with
    line := { s.line with mode := .stopped, leaveTimer := none, receiver := .initial }
    clock := { s.clock with nextPoint := none }
    outbound := { s.outbound with beaconTimer := none, beaconDue := false } }.clearPendingEdges.ownEntryAbsent

/-- R20, R44, R79, R156: a session starts. -/
def State.startSession (s : State) : State :=
  ({ s with
      line := { s.line.restartIdle with mode := .listening }
      clock := { s.clock with nextPoint := some (s.l + millis s.setup.agreementPeriod) } }.restartBeaconTimer
    |>.restartIdleTimer .a).restartIdleTimer .b

/-! ### Frame ends (R13, R14, R33, R35) -/

/-- R33: a frame end counts for BACKOFF, unless it is that of the frame a failed attempt left open. -/
def Line.countFrameEnd (n : Line) : Line :=
  if n.skipFrameEnd then { n with skipFrameEnd := false }
  else if n.transmitter = .backoff then
    if n.backoff ≤ 1 then { n with transmitter := .ready, backoff := 0 } else { n with backoff := n.backoff - 1 }
  else n

/-- R2, R27: the frame ends and the rotation reference is fixed. -/
def Line.endFrame (n : Line) (reference : Option Station) : Line :=
  { n.countFrameEnd with
    lineState := .idle
    receiver := { Receiver.initial with phase := n.receiver.phase }
    reference := reference }

/-- R35: a GOOD frame from another station advances the run count, which may end MUTE. -/
def Line.hearGood (n : Line) : Line :=
  let run := min goodRunCap (n.goodRun + 1)
  if run = goodRunCap ∧ n.transmitter = .mute then
    { n with goodRun := run, transmitter := .ready, failures := 0 }
  else { n with goodRun := run }

/-- R13, R14: the frame end of a completed own frame; surplus bytes advance frames-bad. -/
def State.endOwnFrame (s : State) (surplus : Bool) : State :=
  let t := { s with line := s.line.endFrame (some s.own) }
  if surplus then t.count .framesBad else t

/-- R13: the frame end of a CRC-FAILED or CUT-SHORT frame. -/
def State.endUnreadFrame (s : State) : State :=
  { s with line := { s.line.endFrame none with goodRun := 0 } }.count .framesBad

/-- R13, R21: the frame end of a MALFORMED frame. -/
def State.endMalformedFrame (s : State) (sender : Station) : State :=
  ({ s with line := { s.line.endFrame (some sender) with goodRun := 0 } }.count .framesBad).observe

/-- R13 step 1, R21: line access at the frame end of a GOOD frame from another station. -/
def State.endGoodFrame (s : State) (sender : Station) : State :=
  ({ s with line := (s.line.endFrame (some sender)).hearGood }.count .framesGood).observe

/-- R13 steps 3 to 5: the roster, the sequencer and the outbound side take a GOOD frame. -/
def State.handOn (s : State) (f : Frame) (stamp stampL : Time) : State :=
  ((s.rosterTake f stamp stampL).sequencerTake f).outboundTake f

/-- R13: a classified frame is handed on; R24 where it names the own station. The entry to ACTIVE follows the
handing-on (log 8), and R follows H after the step's arrivals (log 7). A frame with the own number stops the station
without an entry to ACTIVE before it, also where it completes the pair of R21 (DESIGN CHOICE, log 8). -/
def State.takeFrame (s : State) (c : FrameClass) (stamp stampL : Time) : State :=
  match c with
  | .cutShort | .crcFailed => s.endUnreadFrame
  | .malformed sender => (s.endMalformedFrame sender).tryActive.settle
  | .good f =>
    if f.sender = s.own then (s.endGoodFrame f.sender).stop
    else (((s.endGoodFrame f.sender).handOn f stamp stampL).tryActive).settle

end Sys2Proof.Machine
end

