-- ==== Sys2Proof/Machine/Flags.lean ====
section
/-! DEFINITION. The conditions the host port reports: attention causes, FAULT, ATTN, the status byte and
the change summary (R66, R170, R175 to R178). -/

namespace Sys2Proof.Machine

/-- R178: FAULT holds while the transmitter is MUTE or the mode is STOPPED. -/
def State.fault (s : State) : Bool := s.line.transmitter == .mute || s.mode == .stopped

/-- R149: the threshold as a count. -/
def Threshold.toNat : Threshold → Nat
  | .t1 => 1
  | .t4 => 4
  | .t16 => 16
  | .t48 => 48

/-- R158: the cause of a stream. -/
def State.streamCause (s : State) (id : StreamId) : Bool :=
  decide ((s.setup.stream id).threshold.toNat ≤ (s.stream id).entries.length) || (s.stream id).timeout

/-- R66: some change mark is set. -/
def State.rosterCause (s : State) : Bool := s.roster.toList.any (·.mark)

/-- R175, Table 10-4: the cause with code `n` is pending. -/
def State.causePending (s : State) : Nat → Bool
  | 1 => s.fault
  | 2 => !s.urgent.notes.isEmpty
  | 3 => s.streamCause .a
  | 4 => s.streamCause .b
  | 5 => s.lossAdvanced
  | 6 => s.rosterCause
  | 7 => s.clockChanged
  | _ => false

/-- R176: the cause with code `n` is pending and bit n − 1 of the mask enables it. -/
def State.causeEnabled (s : State) (n : Nat) : Bool := s.causePending n && s.setup.attentionMask.getLsbD (n - 1)

/-- R170: the lowest code of a pending enabled cause, or 0. -/
def State.attentionCode (s : State) : Nat :=
  (([1, 2, 3, 4, 5, 6, 7] : List Nat).find? s.causeEnabled).getD 0

/-- R176: ATTN is active while some pending cause is enabled. -/
def State.attn (s : State) : Bool := ([1, 2, 3, 4, 5, 6, 7] : List Nat).any s.causeEnabled

/-- R176: the level at the ATTN output, true for high: driven low when ATTN is active and high when it is inactive. -/
def State.attnLevel (s : State) : Bool := !s.attn

/-- Table 1-10: the coding of the station mode. -/
def Mode.code : Mode → Nat
  | .setup => 0
  | .listening => 1
  | .active => 2
  | .leaving => 3
  | .stopped => 4

/-- R170, Table 1-10: the status byte as the state stands. -/
def State.statusByte (s : State) : Byte :=
  BitVec.ofNat 8 (s.attentionCode + 8 * s.mode.code + if s.line.transmitter = .mute then 64 else 0)

/-- R66: the change summary; bit n is set when station n's mark is. -/
def State.changeSummary (s : State) : BitVec 32 := BitVec.ofFnLE fun i : Fin 32 => (s.entry i).mark

end Sys2Proof.Machine
end

