-- ==== Sys2Proof/Machine/Operands.lean ====
section
/-! DEFINITION. What the host port takes and gives: setup items and their values (R171 to R173), result
bytes, and the layouts of replies (R16, R17). -/

namespace Sys2Proof.Machine

/-! ### Setup items (Table 10-2) -/

/-- The items of Table 10-2. -/
inductive SetupItem where
  | station
  | incarnation
  | clockDivider
  | bitTime
  | slotWidth
  | delayCompensation
  | beaconInterval
  | silenceTimeout
  | expelTimeout
  | agreementPeriod
  | precisionBound
  | stepLimit
  | requestTimeout
  | maxTries
  | debounce
  | edges
  | defaultAction
  | latePolicy
  | holesToB
  | streamMode
  | streamThreshold
  | streamIdleTimeout
  | attentionMask
  | rule (r : Fin 48)
  deriving DecidableEq, Repr

/-- R171: the item an item number names, if any. -/
def setupItem (n : Nat) : Option SetupItem :=
  if h : 64 ≤ n ∧ n < 112 then some (.rule ⟨n - 64, by omega⟩)
  else
    match n with
    | 1 => some .station
    | 2 => some .incarnation
    | 3 => some .clockDivider
    | 4 => some .bitTime
    | 5 => some .slotWidth
    | 6 => some .delayCompensation
    | 7 => some .beaconInterval
    | 8 => some .silenceTimeout
    | 9 => some .expelTimeout
    | 10 => some .agreementPeriod
    | 11 => some .precisionBound
    | 12 => some .stepLimit
    | 13 => some .requestTimeout
    | 14 => some .maxTries
    | 15 => some .debounce
    | 16 => some .edges
    | 23 => some .defaultAction
    | 24 => some .latePolicy
    | 25 => some .holesToB
    | 26 => some .streamMode
    | 27 => some .streamThreshold
    | 28 => some .streamIdleTimeout
    | 29 => some .attentionMask
    | _ => none

/-- R171: how many indices an item has. -/
def SetupItem.indices : SetupItem → Nat
  | .edges => 16
  | .streamMode | .streamThreshold | .streamIdleTimeout => 2
  | .rule _ => 6
  | .station | .incarnation | .clockDivider | .bitTime | .slotWidth | .delayCompensation | .beaconInterval
  | .silenceTimeout | .expelTimeout | .agreementPeriod | .precisionBound | .stepLimit | .requestTimeout
  | .maxTries | .debounce | .defaultAction | .latePolicy | .holesToB | .attentionMask => 1

/-- The coding of edge selections in Table 10-2. -/
def EdgeSelect.code : EdgeSelect → Nat
  | .off => 0
  | .rise => 1
  | .fall => 2
  | .both => 3

def edgeSelectOf : Nat → Option EdgeSelect
  | 0 => some .off
  | 1 => some .rise
  | 2 => some .fall
  | 3 => some .both
  | _ => none

def DefaultAction.code : DefaultAction → Nat
  | .toA => 0
  | .toB => 1
  | .discard => 2

def defaultActionOf : Nat → Option DefaultAction
  | 0 => some .toA
  | 1 => some .toB
  | 2 => some .discard
  | _ => none

def LatePolicy.code : LatePolicy → Nat
  | .drop => 0
  | .deliver => 1

def latePolicyOf : Nat → Option LatePolicy
  | 0 => some .drop
  | 1 => some .deliver
  | _ => none

def flagOf : Nat → Option Bool
  | 0 => some false
  | 1 => some true
  | _ => none

def StreamMode.code : StreamMode → Nat
  | .hold => 0
  | .drop => 1

def streamModeOf : Nat → Option StreamMode
  | 0 => some .hold
  | 1 => some .drop
  | _ => none

def thresholdOf : Nat → Option Threshold
  | 1 => some .t1
  | 4 => some .t4
  | 16 => some .t16
  | 48 => some .t48
  | _ => none

def RuleKind.code : RuleKind → Nat
  | .disabled => 0
  | .range => 1
  | .pair => 2
  | .masked => 3

def ruleKindOf : Nat → Option RuleKind
  | 0 => some .disabled
  | 1 => some .range
  | 2 => some .pair
  | 3 => some .masked
  | _ => none

/-- Table 1-8, Table 10-2. -/
def Action.code : Action → Nat
  | .toA => 0
  | .toB => 1
  | .discard => 2
  | .latch => 3

def actionOf : Nat → Option Action
  | 0 => some .toA
  | 1 => some .toB
  | 2 => some .discard
  | 3 => some .latch
  | _ => none

/-- A value in a range. -/
def inRange (lo hi v : Nat) : Option Nat := if lo ≤ v ∧ v ≤ hi then some v else none

/-- A key operand, 0 to 262,143. -/
def keyOf (v : Nat) : Option Key := if v < 2 ^ 18 then some (BitVec.ofNat 18 v) else none

/-- Table 10-2: one field of a rule; none where the value is refused. -/
def Rule.put (r : Rule) (field v : Nat) : Option Rule :=
  match field with
  | 0 => (ruleKindOf v).map fun x => { r with kind := x }
  | 1 => (keyOf v).map fun x => { r with a := x }
  | 2 => (keyOf v).map fun x => { r with b := x }
  | 3 => (actionOf v).map fun x => { r with action := x }
  | 4 => if h : v < 16 then some { r with slot := ⟨v, h⟩ } else none
  | 5 => (flagOf v).map fun x => { r with urgent := x }
  | _ => none

/-- Table 10-2: the value of a rule's field. -/
def Rule.get (r : Rule) (field : Nat) : Nat :=
  match field with
  | 0 => r.kind.code
  | 1 => r.a.toNat
  | 2 => r.b.toNat
  | 3 => r.action.code
  | 4 => r.slot.val
  | 5 => if r.urgent then 1 else 0
  | _ => 0

/-- Which stream an index of Table 10-2 or a stream byte names; anything but 0 is B. -/
def streamOf (n : Nat) : StreamId := if n = 0 then .a else .b

/-- Replace the setup values of one stream. -/
def Setup.setStream (c : Setup) (id : StreamId) (x : StreamSetup) : Setup :=
  match id with
  | .a => { c with streamA := x }
  | .b => { c with streamB := x }

/-- An index of an item as an index of the item's table. -/
def indexIn (n : Nat) [NeZero n] (i : Nat) : Fin n := Fin.ofNat n i

/-- R172 check 4 and the write: the setup values after item `it`, index `i`, takes value `v`; none where the value is
none of Table 10-2. -/
def Setup.put (c : Setup) (it : SetupItem) (i v : Nat) : Option Setup :=
  match it with
  | .station => if h : v < 32 then some { c with station := ⟨v, h⟩ } else none
  | .incarnation => (inRange 0 255 v).map fun x => { c with incarnation := BitVec.ofNat 8 x }
  | .clockDivider => (inRange 1 64 v).map fun x => { c with clockDivider := x }
  | .bitTime => (inRange 1 100 v).map fun x => { c with bitTime := x }
  | .slotWidth => (inRange 4 64 v).map fun x => { c with slotWidth := x }
  | .delayCompensation => (inRange 0 255 v).map fun x => { c with delayCompensation := x }
  | .beaconInterval => (inRange 5 1000 v).map fun x => { c with beaconInterval := x }
  | .silenceTimeout => (inRange 10 10000 v).map fun x => { c with silenceTimeout := x }
  | .expelTimeout => (inRange 100 60000 v).map fun x => { c with expelTimeout := x }
  | .agreementPeriod => (inRange 10 1000 v).map fun x => { c with agreementPeriod := x }
  | .precisionBound => (inRange 5 1000 v).map fun x => { c with precisionBound := x }
  | .stepLimit => (inRange 10 5000 v).map fun x => { c with stepLimit := x }
  | .requestTimeout => (inRange 1 100 v).map fun x => { c with requestTimeout := x }
  | .maxTries => (inRange 1 7 v).map fun x => { c with maxTries := x }
  | .debounce => (inRange 0 65535 v).map fun x => { c with debounce := x }
  | .edges => (edgeSelectOf v).map fun x => { c with edges := c.edges.set (indexIn 16 i).val x }
  | .defaultAction => (defaultActionOf v).map fun x => { c with defaultAction := x }
  | .latePolicy => (latePolicyOf v).map fun x => { c with latePolicy := x }
  | .holesToB => (flagOf v).map fun x => { c with holesToB := x }
  | .streamMode =>
    (streamModeOf v).map fun x => c.setStream (streamOf i) { c.stream (streamOf i) with mode := x }
  | .streamThreshold =>
    (thresholdOf v).map fun x => c.setStream (streamOf i) { c.stream (streamOf i) with threshold := x }
  | .streamIdleTimeout =>
    (inRange 1 1000 v).map fun x => c.setStream (streamOf i) { c.stream (streamOf i) with idleTimeout := x }
  | .attentionMask => (inRange 0 127 v).map fun x => { c with attentionMask := BitVec.ofNat 7 x }
  | .rule r => (c.rules[r.val].put i v).map fun x => { c with rules := c.rules.set r.val x }

/-- R173: the value of an item at an index. -/
def Setup.get (c : Setup) (it : SetupItem) (i : Nat) : Nat :=
  match it with
  | .station => c.station.val
  | .incarnation => c.incarnation.toNat
  | .clockDivider => c.clockDivider
  | .bitTime => c.bitTime
  | .slotWidth => c.slotWidth
  | .delayCompensation => c.delayCompensation
  | .beaconInterval => c.beaconInterval
  | .silenceTimeout => c.silenceTimeout
  | .expelTimeout => c.expelTimeout
  | .agreementPeriod => c.agreementPeriod
  | .precisionBound => c.precisionBound
  | .stepLimit => c.stepLimit
  | .requestTimeout => c.requestTimeout
  | .maxTries => c.maxTries
  | .debounce => c.debounce
  | .edges => (c.edges[(indexIn 16 i).val]).code
  | .defaultAction => c.defaultAction.code
  | .latePolicy => c.latePolicy.code
  | .holesToB => if c.holesToB then 1 else 0
  | .streamMode => (c.stream (streamOf i)).mode.code
  | .streamThreshold => (c.stream (streamOf i)).threshold.toNat
  | .streamIdleTimeout => (c.stream (streamOf i)).idleTimeout
  | .attentionMask => c.attentionMask.toNat
  | .rule r => c.rules[r.val].get i

/-- R172 checks 2 and 3: an item number and an index that Table 10-2 gives. -/
def addressedItem (item index : Byte) : Option SetupItem :=
  match setupItem item.toNat with
  | some it => if index.toNat < it.indices then some it else none
  | none => none

/-- R174, Table 10-3: the item number of the first COMMIT check that fails. -/
def Setup.commitFailure (c : Setup) : Option Nat :=
  if c.silenceTimeout < 2 * c.beaconInterval then some 8
  else if c.expelTimeout ≤ c.silenceTimeout then some 9
  else if c.agreementPeriod < c.beaconInterval then some 10
  else
    ((List.finRange 48).find? fun r => c.rules[r.val].kind == .range && decide (c.rules[r.val].b < c.rules[r.val].a)).map
      fun r => 64 + r.val

/-! ### Results and replies (R16, R17) -/

/-- The result byte of R17. -/
inductive Result where
  | ok
  | notNow
  | outOfRange
  | full
  | empty
  | badCommand
  | invalid
  deriving DecidableEq, Repr

def Result.code : Result → Byte
  | .ok => 0
  | .notNow => 1
  | .outOfRange => 2
  | .full => 3
  | .empty => 4
  | .badCommand => 5
  | .invalid => 6

/-- R167: a reply: the result byte and the data. -/
def reply (r : Result) (data : List Byte) : List Byte := r.code :: data

/-- A flag as a bit of weight `w`. -/
def weigh (b : Bool) (w : Nat) : Nat := if b then w else 0

/-- Table 1-7: an EVENT entry or a latch record. -/
def Record.toBytes (r : Record) (late forced : Bool) (dropped : Option (BitVec 8)) : List Byte :=
  BitVec.ofNat 8 (weigh late 2 + weigh forced 4 + weigh r.data.unsure 8 + weigh r.data.value.isSome 16
      + weigh r.data.loss.isSome 32 + weigh dropped.isSome 64)
    :: BitVec.ofNat 8 r.station.val :: r.incarnation :: leBytes 2 r.seq.toNat
    ++ BitVec.ofNat 8 r.data.channel.val :: r.data.code :: leBytes 6 r.data.timestamp.toNat
    ++ (match r.data.value with | some v => leBytes 2 v.toNat | none => [])
    ++ r.data.loss.toList ++ dropped.toList

/-- Table 1-7: the reason byte. -/
def HoleReason.code : HoleReason → Byte
  | .noAnswer => 1
  | .gone => 2
  | .left => 3
  | .restart => 4
  | .noRoom => 5
  | .beyond => 6

/-- Table 1-7: a HOLE entry. -/
def Hole.toBytes (h : Hole) (late forced : Bool) (dropped : Option (BitVec 8)) : List Byte :=
  BitVec.ofNat 8 (1 + weigh late 2 + weigh forced 4 + weigh dropped.isSome 64)
    :: BitVec.ofNat 8 h.station.val :: h.incarnation :: leBytes 2 h.first.toNat
    ++ leBytes 2 h.count ++ h.reason.code :: leBytes 6 h.bound.toNat
    ++ dropped.toList

/-- Table 1-7. -/
def JournalEntry.toBytes (e : JournalEntry) : List Byte :=
  match e.item with
  | .record r => r.toBytes e.late e.forced e.dropped
  | .hole h => h.toBytes e.late e.forced e.dropped

/-- R16: a latch slot as READ-LATCH returns it. -/
def Latch.toBytes (x : Latch) : List Byte :=
  (if x.fresh then 1 else 0) :: x.record.toBytes false x.forced none

/-- Table 1-8. -/
def Note.actionByte (n : Note) : Byte :=
  BitVec.ofNat 8 (n.action.code + if n.action = .latch then 4 * n.slot.val else 0)

/-- Table 1-9. -/
def Note.toBytes (n : Note) (overflow : Bool) : List Byte :=
  (if overflow then 1 else 0) :: BitVec.ofNat 8 n.station.val :: BitVec.ofNat 8 n.channel.val :: n.code
    :: leBytes 2 n.seq.toNat ++ leBytes 6 n.timestamp.toNat ++ [n.actionByte]

/-- R17: a signed 48-bit field in two's complement; a value that does not fit is free (log 11). -/
def signedField (v : Int) : BitVec 48 :=
  if -2 ^ 47 ≤ v ∧ v < 2 ^ 47 then BitVec.ofInt 48 v else Config.signed48Outside v

/-- R17: the coding of roster states. -/
def Membership.code : Membership → Byte
  | .absent => 0
  | .joining => 1
  | .live => 2
  | .silent => 3

/-- R17: the coding of clock states. -/
def ClockState.code : ClockState → Byte
  | .free => 0
  | .converging => 1
  | .agreed => 2

/-- R67: the number of open gaps of the station's current incarnation. -/
def State.openGaps (s : State) (i : Station) : Nat :=
  match s.seqEntry i with
  | some q => (s.sequencer.gaps.filter fun g => g.station == i && g.incarnation == q.incarnation).length
  | none => 0

/-- Table 1-11: the data of READ-ROSTER. -/
def rosterBytes (state inc : Byte) (flags : Nat) (lastHeard : Time) (offset : Int) (next : Seq) (hw : Time)
    (gaps : Nat) : List Byte :=
  state :: inc :: BitVec.ofNat 8 flags :: leBytes 6 lastHeard.toNat ++ leBytes 6 (signedField offset).toNat
    ++ leBytes 2 next.toNat ++ leBytes 6 hw.toNat ++ [BitVec.ofNat 8 gaps]

/-- R67: the reply for a peer entry. -/
def State.peerBytes (s : State) (i : Station) : List Byte :=
  let e := s.entry i
  let q := s.seqEntry i
  rosterBytes e.state.code e.incarnation
    (weigh q.isSome 1 + weigh (q.bind (·.next)).isSome 2 + weigh (e.sample.any (·.agreed)) 4)
    e.lastHeard ((e.sample.map (·.offset)).getD 0) ((q.bind (·.next)).getD 0)
    ((q.map (·.watermark)).getD 0) (s.openGaps i)

/-- R68: the reply for the own entry. -/
def State.ownBytes (s : State) : List Byte :=
  let e := s.entry s.own
  rosterBytes (if s.mode.working then Membership.live.code else Membership.absent.code) e.incarnation 0
    e.lastHeard 0 s.outbound.nextSeq s.outbound.lastWatermark 0

/-- R52, R182: the data of READ-CLOCK. -/
def Clock.toBytes (c : Clock) : List Byte :=
  c.state.code :: leBytes 6 c.st.toNat ++ leBytes 2 c.debt ++ leBytes 6 (signedField c.lastM).toNat

/-- Table 10-5: the line group, in order. -/
def Counters.lineGroup (c : Counters) : List (BitVec 16) :=
  [c.framesGood, c.framesBad, c.attemptsFailed, c.requestsSent, c.requestsSuppressed, c.repeatsSent,
    c.duplicatesDiscarded, c.jobsDropped]

/-- Table 10-5: the loss group, in order. -/
def Counters.lossGroup (c : Counters) : List (BitVec 16) :=
  [c.captureLost, c.lateDropped, c.forcedReleases, c.holesCreated, c.streamADropped, c.streamBDropped,
    c.urgentOverflows]

/-- R180: counters as bytes, two each. -/
def counterBytes (cs : List (BitVec 16)) : List Byte := cs.flatMap fun c => leBytes 2 c.toNat

end Sys2Proof.Machine
end

