-- ==== Sys2Proof/Machine/HostPort.lean ====
section
/-! DEFINITION. The meanings of the reset, of the transaction framing and of every host command (10, R36,
R52, R66 to R68, R76, R121, R153, R162). -/

namespace Sys2Proof.Machine

/-- The outcome of every meaning of this machine: a next state. -/
abbrev Next := Host.Outcome State Fault Refusal

/-! ### Taking a command (R165 to R169) -/

/-- R167: the reply is prepared. -/
def State.answer (s : State) (r : Result) (data : List Byte) : State :=
  { s with host := { s.host with stage := .replied, reply := reply r data } }

/-- R165, R166: a command is taken in an open transaction that has taken none; otherwise the port ignores
the bytes. -/
def State.take (s : State) (f : State → State) : State := if s.host.stage = .opened then f s else s

/-- R169: a command answered NOT-NOW outside the modes that `p` gives. -/
def State.inMode (s : State) (p : Bool) (f : State → State) : State := if p then f s else s.answer .notNow []

/-! ### Reset and transactions -/

/-- R185, R186: the transaction state after a full reset. -/
def stageAfterReset (chipSelect : Bool) : Stage := if chipSelect then .ignored else .idle

/-- R75, R79, R185: the full-reset state. The levels last sampled at the inputs, and the level last read at the
receive-data input, are those of the pins and stand until the next increment of L. -/
def State.fullReset (s : State) : State :=
  { State.reset with
    pending := s.pending
    capture := { Capture.initial with levels := s.capture.levels }
    receiveData := s.receiveData }

/-- R165: chip select is active. -/
def State.chipSelect (s : State) : Bool := s.host.stage != .idle

/-- FULL_RESET (R185, R186): RST goes active and holds the part, with chip select at the level it has, or is released. -/
def execFullReset (rst : ResetLine) (s : State) : Next :=
  match rst with
  | .held =>
    .next
      { s.fullReset with
        host := { HostPort.initial with stage := stageAfterReset s.chipSelect }, inReset := true }
  | .released chipSelect =>
    .next { s.fullReset with host := { HostPort.initial with stage := stageAfterReset chipSelect } }

/-- TRANSACTION_START (R165): chip select becomes active, and the status byte is latched. While RST is held the port
ignores chip select (R185), and what it has begun to ignore it ignores to its end (R186). -/
def execTransactionStart (s : State) : Next :=
  if s.host.stage = .idle then
    if s.inReset then .next { s with host := { s.host with stage := .ignored } }
    else .next { s with host := ⟨.opened, s.statusByte, []⟩ }
  else .next s

/-- TRANSACTION_END (R167): chip select becomes inactive; the rest of the reply is lost, and effects stand. -/
def execTransactionEnd (s : State) : Next :=
  .next { s with host := { s.host with stage := .idle, reply := [] } }

/-! ### Reading commands -/

/-- R153: the read of a stream that holds entries. -/
def State.readEntries (s : State) (id : StreamId) (max : Nat) : State :=
  let st := s.stream id
  let taken := st.entries.take max
  let t := (s.setStream id { st with entries := st.entries.drop max, timeout := false }).restartIdleTimer id
  (t.answer .ok (BitVec.ofNat 8 taken.length :: taken.flatMap (·.toBytes))).releaseReady

/-- R153: READ-STREAM taken. -/
def State.readStream (s : State) (stream max : Byte) : State :=
  if 1 < stream.toNat then s.answer .outOfRange []
  else if max.toNat < 1 ∨ 64 < max.toNat then s.answer .outOfRange []
  else if (s.stream (streamOf stream.toNat)).entries = [] then
    (s.restartIdleTimer (streamOf stream.toNat)).answer .empty []
  else s.readEntries (streamOf stream.toNat) max.toNat

/-- READ_STREAM (R153, R154). -/
def execReadStream (stream max : Byte) (s : State) : Next := .next (s.take (·.readStream stream max))

/-- R162: the read of a filled slot. -/
def State.readSlot (s : State) (n : SlotNo) : State :=
  match s.journal.latches[n.val] with
  | none => s.answer .empty []
  | some x =>
    { s with
      journal :=
        { s.journal with latches := s.journal.latches.set n.val (some { x with fresh := false }) } }.answer
      .ok x.toBytes

/-- R162: READ-LATCH taken. -/
def State.readLatch (s : State) (slot : Byte) : State :=
  if h : slot.toNat < 16 then s.readSlot ⟨slot.toNat, h⟩ else s.answer .outOfRange []

/-- READ_LATCH (R162). -/
def execReadLatch (slot : Byte) (s : State) : Next := .next (s.take (·.readLatch slot))

/-- R121: READ-URGENT taken. -/
def State.readUrgent (s : State) : State :=
  match s.urgent.notes with
  | [] => s.answer .empty []
  | n :: rest =>
    { s with urgent := ⟨rest, s.urgent.overflow && !rest.isEmpty⟩ }.answer .ok (n.toBytes s.urgent.overflow)

/-- READ_URGENT (R121). -/
def execReadUrgent (s : State) : Next := .next (s.take (·.readUrgent))

/-- R67, R68: READ-ROSTER taken. -/
def State.readRoster (s : State) (station : Byte) : State :=
  if h : station.toNat < 32 then
    s.answer .ok (if (⟨station.toNat, h⟩ : Station) = s.own then s.ownBytes else s.peerBytes ⟨station.toNat, h⟩)
  else s.answer .outOfRange []

/-- READ_ROSTER (R67, R68). -/
def execReadRoster (station : Byte) (s : State) : Next := .next (s.take (·.readRoster station))

/-- R66: every mark is cleared. -/
def State.clearMarks (s : State) : State := { s with roster := s.roster.map fun e => { e with mark := false } }

/-- R66: READ-CHANGES taken. -/
def State.readChanges (s : State) : State := s.clearMarks.answer .ok (leBytes 4 s.changeSummary.toNat)

/-- READ_CHANGES (R66). -/
def execReadChanges (s : State) : Next := .next (s.take (·.readChanges))

/-- R52, R182: READ-CLOCK taken. -/
def State.readClock (s : State) : State := { s with clockChanged := false }.answer .ok s.clock.toBytes

/-- READ_CLOCK (R182). -/
def execReadClock (s : State) : Next := .next (s.take (·.readClock))

/-- R177, R180: READ-COUNTERS taken. -/
def State.readCounters (s : State) (group : Byte) : State :=
  if group = 0 then s.answer .ok (counterBytes s.counters.lineGroup)
  else if group = 1 then { s with lossAdvanced := false }.answer .ok (counterBytes s.counters.lossGroup)
  else s.answer .outOfRange []

/-- READ_COUNTERS (R180). -/
def execReadCounters (group : Byte) (s : State) : Next := .next (s.take (·.readCounters group))

/-- R181: CLEAR-COUNTERS taken. -/
def State.clearCounters (s : State) : State := { s with counters := Counters.initial }.answer .ok []

/-- CLEAR_COUNTERS (R181). -/
def execClearCounters (s : State) : Next := .next (s.take (·.clearCounters))

/-! ### Setup commands -/

/-- R172 checks 2 to 4: SETUP-WRITE taken in SETUP. -/
def State.setupWrite (s : State) (item index : Byte) (value : BitVec 32) : State :=
  match addressedItem item index with
  | none => s.answer .outOfRange []
  | some it =>
    match s.setup.put it index.toNat value.toNat with
    | none => s.answer .outOfRange []
    | some c => { s with setup := c }.answer .ok []

/-- SETUP_WRITE (R172). -/
def execSetupWrite (item index : Byte) (value : BitVec 32) (s : State) : Next :=
  .next (s.take fun s => s.inMode (s.mode == .setup) (·.setupWrite item index value))

/-- R173: SETUP-READ taken in SETUP. -/
def State.setupRead (s : State) (item index : Byte) : State :=
  match addressedItem item index with
  | none => s.answer .outOfRange []
  | some it => s.answer .ok (leBytes 4 (s.setup.get it index.toNat))

/-- SETUP_READ (R173). -/
def execSetupRead (item index : Byte) (s : State) : Next :=
  .next (s.take fun s => s.inMode (s.mode == .setup) (·.setupRead item index))

/-- R174: COMMIT taken in SETUP. -/
def State.commit (s : State) : State :=
  match s.setup.commitFailure with
  | some item => s.answer .invalid [BitVec.ofNat 8 item]
  | none => s.startSession.answer .ok []

/-- COMMIT (R20, R174). -/
def execCommit (s : State) : Next := .next (s.take fun s => s.inMode (s.mode == .setup) (·.commit))

/-! ### Working commands -/

/-- R76: SUBMIT taken in ACTIVE. The data is the sequence number given. -/
def State.submit (s : State) (channel code flags : Byte) (value : BitVec 16) : State :=
  if h : 16 ≤ channel.toNat ∧ channel.toNat < 32 then
    if s.outqFull then s.answer .full []
    else
      (s.createOwn ⟨channel.toNat, h.2⟩ code s.st (!s.clockAgreed)
          (if flags.getLsbD 0 then some value else none)).answer
        .ok (leBytes 2 s.outbound.nextSeq.toNat)
  else s.answer .outOfRange []

/-- SUBMIT (R76, R77). -/
def execSubmit (channel code flags : Byte) (value : BitVec 16) (s : State) : Next :=
  .next (s.take fun s => s.inMode (s.mode == .active) (·.submit channel code flags value))

/-- R36: a MUTE transmitter becomes READY. -/
def Line.unmute (n : Line) : Line :=
  if n.transmitter = .mute then { n with transmitter := .ready, failures := 0 } else n

/-- UNMUTE (R36). -/
def execUnmute (s : State) : Next := .next (s.take fun s => { s with line := s.line.unmute }.answer .ok [])

/-- R22: the leave limit, twice the silence timeout, in milliseconds. -/
def State.leaveLimit (s : State) : Nat := 2 * s.setup.silenceTimeout

/-- R22, R75: the mode becomes LEAVING, the leave timer starts, and pending states are cleared. -/
def State.startLeaving (s : State) : State :=
  { s with
    line := { s.line with mode := .leaving, leaveTimer := some (s.l + millis s.leaveLimit) } }.clearPendingEdges

/-- LEAVE (R22). Nothing changes in the pool at the entry to LEAVING (R146). The local horizon is ST from here on, because
the pending states end (R75); ORDERED_RELEASE at this L, or at the latest the next increment, lets R follow it (log 7). -/
def execLeave (s : State) : Next :=
  .next (s.take fun s => s.inMode (s.mode == .active) fun s => s.startLeaving.answer .ok [])

/-- RESTART (R184). -/
def execRestart (s : State) : Next := .next (s.take fun s => s.endSession.answer .ok [])

/-- BAD_COMMAND (R168). -/
def execBadCommand (byte : Byte) (s : State) : Next :=
  .next (if (parameterCount byte).isSome then s else s.take fun s => s.answer .badCommand [])

end Sys2Proof.Machine
end

