-- ==== Sys2Proof/Machine/Events.lean ====
section
/-! DEFINITION. The meanings of the events: the line, the clock, the inputs, the timers and release. An
event whose instant or condition has not come has not occurred, and changes nothing (log 3). -/

namespace Sys2Proof.Machine

/-! ### The line (01, 02) -/

/-- FRAME_START (R2, R42): a confirmed start bit that began after 12 bt of idle opens a frame with the stamps of its fall;
the wait of R28 is over, and the idle time stands at 0 until the stop bit restarts it. -/
def execFrameStart (s : State) : Next :=
  match s.line.receiver.phase, s.frameStartFall with
  | .reading _ bits value, some f =>
    if s.mode.onLine ∧ s.line.lineState = .idle then
      .next { s with
        line :=
          { s.line.restartIdle with
            lineState := .receiving
            receiver := .openAt (.reading { f with idle := 0 } bits value) f } }
    else .next s
  | _, _ => .next s

/-- R13, R14: the frame end of the open frame. -/
def State.frameEnd (s : State) : State :=
  if s.line.lineState = .transmitting then s.endOwnFrame (!s.line.receiver.bytes.isEmpty)
  else
    s.takeFrame (classify s.line.receiver.bytes s.line.receiver.framingError) s.line.receiver.stamp
      s.line.receiver.stampL

/-- R2: a frame is open, no own frame is in flight, and the idle run has reached 12 bt. -/
def State.atFrameEnd (s : State) : Bool :=
  s.mode.onLine && s.line.lineState != .idle && s.line.flight.isNone && s.frameEndReached

/-- FRAME_END (R13, R14). The command names the frame that ends, and no other frame ends (log 2). -/
def execFrameEnd (bytes : List Byte) (framingError : Bool) (s : State) : Next :=
  if s.atFrameEnd ∧ bytes = s.line.receiver.bytes ∧ framingError = s.line.receiver.framingError then .next s.frameEnd
  else .next s

/-- R28: an opportunity at this idle time has passed. -/
def State.passOpportunity (s : State) : State :=
  { s with line := { s.line with opportunityFloor := s.line.idle + 1 } }

/-- R28, R29: an opportunity is used if the station may send and a frame is due. -/
def State.useOpportunity (s : State) : State :=
  if s.maySend then
    match s.arbitrate with
    | some (body, covered) => s.startFrame body covered
    | none => s
  else s

/-- OPPORTUNITY (R28, R29). -/
def execOpportunity (s : State) : Next :=
  if s.atOpportunity then .next s.passOpportunity.useOpportunity else .next s

/-- R3: the last stop bit of a frame in flight can have ended. -/
def State.flightOver (s : State) (f : Flight) : Bool :=
  decide (frameBits f.frame.toBytes * s.setup.bitTime ≤ (s.l - f.startL).toNat)

/-- COMPLETION (R31, R187): every bit has read back as driven; the owning source is told, and the LEAVING BEACON ends
LEAVING. -/
def execCompletion (s : State) : Next :=
  match s.line.flight with
  | none => .next s
  | some f =>
    if f.mismatch = none ∧ s.flightOver f then
      if f.frame.body.isLeaving then .next (s.completeFrame f).endSession else .next (s.completeFrame f)
    else .next s

/-- FAILED_ATTEMPT (R32, R34): the driven bit has read back different; no source changes anything. The command names
the bit, and no other bit fails the attempt (log 2). -/
def execFailedAttempt (bit : Nat) (s : State) : Next :=
  if s.line.flight.bind (·.mismatch) = some bit then
    .next { s.count .attemptsFailed with line := s.line.failAttempt bit }
  else .next s

/-- R33: an empty rotation counts for BACKOFF. A transmitter it makes READY does not take the opportunity of the
same instant. -/
def State.countRotation (s : State) : Line :=
  let n := { s.line with rotations := s.line.rotations + 1 }
  if n.transmitter = .backoff then
    if n.backoff ≤ 1 then
      { n with
        transmitter := .ready, backoff := 0, opportunityFloor := max n.opportunityFloor (s.nextRotation + 1) }
    else { n with backoff := n.backoff - 1 }
  else n

/-- EMPTY_ROTATION (R21, R33). -/
def execEmptyRotation (s : State) : Next :=
  if s.mode.onLine ∧ s.nextRotation ≤ s.line.settledIdle then
    .next (({ s with line := s.countRotation }.observe).tryActive).settle
  else .next s

/-- R2, R26: the line's release past a framing error: the idle run and the idle time restart at the instant the line came
back to the idle level, `rested` microseconds ago, and the receiver looks for a start bit again. What is left of the stop
bit still passes first (log 32). -/
def Line.takeRelease (n : Line) (rested : Nat) : Line :=
  { n with idle := rested, rotations := 0, opportunityFloor := 0 }.setPhase .searching

/-- LINE_RELEASE_AFTER_FRAMING_ERROR (R1, R2, R26): the line, held active past a framing error, is back at the idle
level. -/
def execLineRelease (s : State) : Next :=
  match s.line.receiver.phase with
  | .held rested =>
    if s.mode.onLine ∧ s.receiveData then .next { s with line := s.line.takeRelease rested } else .next s
  | .searching | .falling _ | .reading _ _ _ => .next s

/-- LEAVE_TIMER_EXPIRY (R23, R188). -/
def execLeaveTimerExpiry (s : State) : Next :=
  match s.line.leaveTimer with
  | none => .next s
  | some expiry => if s.mode = .leaving ∧ reached s.l expiry then .next s.endSession else .next s

/-! ### The clock (03) -/

/-- R72, R79: the levels of the inputs are sampled for the first time after a full reset. -/
def Capture.firstSample (c : Capture) (inputs : BitVec 16) : Capture :=
  if c.sampled then c else { c with levels := inputs, sampled := true }

/-- R1, R26, R39, R40, R42, R72: L advances, and what follows it. A fall of the line in the microsecond that ends is one of
the instant that ends, with the ST of `fallStamp`. -/
def State.increment (s : State) (inputs : BitVec 16) (receiveData : Bool) : State :=
  { s with
    clock := s.clock.increment
    line := s.line.passMicrosecond s.setup.bitTime s.fallStamp s.l s.receiveData receiveData
    capture := s.capture.firstSample inputs
    receiveData := receiveData }

/-- LOCAL_COUNT_INCREMENT (R39, R40). While RST is held L stands at 0 (R185). The advance of R and the release that an
increment makes due belong to the instant it reaches: ORDERED_RELEASE takes them there, before or after the other events
of that instant (R137, R155, R156, R163), and at the latest they are taken when that instant ends, at the next increment
(R129, log 29). -/
def execLocalCountIncrement (inputs : BitVec 16) (receiveData : Bool) (s : State) : Next :=
  if s.inReset then .next s else .next (s.settle.increment inputs receiveData)

/-- AGREEMENT_POINT (R44): the mode becomes ACTIVE at the point if the pair of R21 is complete. -/
def execAgreementPoint (s : State) : Next :=
  match s.clock.nextPoint with
  | none => .next s
  | some point =>
    if s.mode.onLine ∧ reached s.l point then .next (s.takePoint point).tryActive.settle else .next s

/-! ### Timers (04, 05, 06, 09) -/

/-- R58: what the silence expiry of an entry does. -/
def State.takeSilence (s : State) (i : Station) : State :=
  match (s.entry i).state with
  | .joining => (s.joinLapse i).settle
  | .live => (s.fallSilent i).settle
  | .absent | .silent => s

/-- SILENCE_TIMER_EXPIRY (R58). -/
def execSilenceTimerExpiry (i : Station) (s : State) : Next :=
  if s.mode.onLine ∧ i ≠ s.own ∧ s.silenceDue i then .next (s.takeSilence i) else .next s

/-- EXPEL_TIMER_EXPIRY (R60). -/
def execExpelTimerExpiry (i : Station) (s : State) : Next :=
  if s.mode.onLine ∧ i ≠ s.own ∧ (s.entry i).state = .silent ∧ s.expelDue i then .next (s.expel i).settle
  else .next s

/-- DEBOUNCE_EXPIRY (R74). -/
def execDebounceExpiry (i : InputNo) (s : State) : Next :=
  match s.pendingEdge i with
  | none => .next s
  | some p =>
    if s.mode = .active ∧ reached s.l (p.edgeL + micros s.setup.debounce) then
      .next (s.confirmCapture i p).settle
    else .next s

/-- BEACON_TIMER_EXPIRY (R85). -/
def execBeaconTimerExpiry (s : State) : Next :=
  match s.outbound.beaconTimer with
  | none => .next s
  | some expiry =>
    if s.mode.onLine ∧ reached s.l expiry then
      .next { s with outbound := { s.outbound with beaconTimer := none, beaconDue := true } }
    else .next s

/-- GAP_DEADLINE (R102, R105): the deadline of a gap that is not due yet. -/
def execGapDeadline (station : Station) (first : Seq) (s : State) : Next :=
  match s.sequencer.gaps.find? (·.isAt station first) with
  | none => .next s
  | some g =>
    if s.mode.onLine ∧ g.due = false ∧ reached s.l g.deadline then .next (s.takeDeadline g).settle else .next s

/-- IDLE_TIMER_EXPIRY (R156): the timeout flag is set if entries are held; the timer stops. -/
def execIdleTimerExpiry (id : StreamId) (s : State) : Next :=
  match (s.stream id).idleTimer with
  | none => .next s
  | some expiry =>
    if reached s.l expiry then
      .next (s.setStream id
        { s.stream id with
          timeout := (s.stream id).timeout || !(s.stream id).entries.isEmpty
          idleTimer := none })
    else .next s

/-! ### Inputs and release (05, 08) -/

/-- R72: the sampled level of an input becomes the level given. -/
def setLevel (levels : BitVec 16) (i : InputNo) (level : Bool) : BitVec 16 :=
  if level then levels ||| BitVec.ofNat 16 (2 ^ i.val) else levels &&& ~~~BitVec.ofNat 16 (2 ^ i.val)

/-- R73: the pending state an edge starts now. -/
def State.newPending (s : State) (level : Bool) : PendingEdge := ⟨s.st, s.l, level, s.clockAgreed⟩

/-- R73, R74: an edge of a selected kind; with a debounce of 0 it is confirmed at once. -/
def State.startPending (s : State) (i : InputNo) (level : Bool) : State :=
  if s.setup.debounce = 0 then (s.setPendingEdge i (some (s.newPending level))).confirmCapture i (s.newPending level)
  else s.setPendingEdge i (some (s.newPending level))

/-- R72, R74: an edge of an input whose level is already updated. -/
def State.takeEdge (s : State) (i : InputNo) (level : Bool) : State :=
  match s.pendingEdge i with
  | some _ => (s.setPendingEdge i none).settle
  | none =>
    if s.mode = .active ∧ (s.setup.edges[i.val]).selects level then (s.startPending i level).settle else s

/-- R72: an input's sampled level changes. -/
def State.setInput (s : State) (levels : BitVec 16) (i : InputNo) (level : Bool) : State :=
  { s with capture := { s.capture with levels := setLevel levels i level } }

/-- EDGE (R72, R73, R74). An edge is a change between two samples, so there is none before the first (log 15). A second EDGE
of the same input at the same L, between which no sample lies, is taken as a further edge (DESIGN CHOICE, log 35). -/
def execEdge (i : InputNo) (level : Bool) (s : State) : Next :=
  if s.capture.sampled = false ∨ s.capture.levels.getLsbD i.val = level then .next s
  else .next ((s.setInput s.capture.levels i level).takeEdge i level)

/-- ORDERED_RELEASE (R129, R131). -/
def execOrderedRelease (s : State) : Next := .next s.settle

end Sys2Proof.Machine
end

