-- ==== Sys2Proof/Machine/Dispatch.lean ====
section
/-! DEFINITION. The meaning of each command, one arm per constructor. -/

namespace Sys2Proof.Machine

def exec (i : Instr) (s : State) : Host.Outcome State Fault Refusal :=
  match i with
  | .fullReset rst => Sys2Proof.Machine.execFullReset rst s
  | .transactionStart => Sys2Proof.Machine.execTransactionStart s
  | .transactionEnd => Sys2Proof.Machine.execTransactionEnd s
  | .readStream stream max => Sys2Proof.Machine.execReadStream stream max s
  | .readLatch slot => Sys2Proof.Machine.execReadLatch slot s
  | .readUrgent => Sys2Proof.Machine.execReadUrgent s
  | .readRoster station => Sys2Proof.Machine.execReadRoster station s
  | .readChanges => Sys2Proof.Machine.execReadChanges s
  | .readClock => Sys2Proof.Machine.execReadClock s
  | .readCounters group => Sys2Proof.Machine.execReadCounters group s
  | .clearCounters => Sys2Proof.Machine.execClearCounters s
  | .setupWrite item index value => Sys2Proof.Machine.execSetupWrite item index value s
  | .setupRead item index => Sys2Proof.Machine.execSetupRead item index s
  | .commit => Sys2Proof.Machine.execCommit s
  | .submit channel code flags value => Sys2Proof.Machine.execSubmit channel code flags value s
  | .unmute => Sys2Proof.Machine.execUnmute s
  | .leave => Sys2Proof.Machine.execLeave s
  | .restart => Sys2Proof.Machine.execRestart s
  | .badCommand byte => Sys2Proof.Machine.execBadCommand byte s
  | .frameEnd bytes framingError => Sys2Proof.Machine.execFrameEnd bytes framingError s
  | .opportunity => Sys2Proof.Machine.execOpportunity s
  | .completion => Sys2Proof.Machine.execCompletion s
  | .failedAttempt bit => Sys2Proof.Machine.execFailedAttempt bit s
  | .emptyRotation => Sys2Proof.Machine.execEmptyRotation s
  | .leaveTimerExpiry => Sys2Proof.Machine.execLeaveTimerExpiry s
  | .agreementPoint => Sys2Proof.Machine.execAgreementPoint s
  | .silenceTimerExpiry station => Sys2Proof.Machine.execSilenceTimerExpiry station s
  | .expelTimerExpiry station => Sys2Proof.Machine.execExpelTimerExpiry station s
  | .edge input level => Sys2Proof.Machine.execEdge input level s
  | .debounceExpiry input => Sys2Proof.Machine.execDebounceExpiry input s
  | .beaconTimerExpiry => Sys2Proof.Machine.execBeaconTimerExpiry s
  | .gapDeadline station first => Sys2Proof.Machine.execGapDeadline station first s
  | .orderedRelease => Sys2Proof.Machine.execOrderedRelease s
  | .idleTimerExpiry stream => Sys2Proof.Machine.execIdleTimerExpiry stream s
  | .frameStart => Sys2Proof.Machine.execFrameStart s
  | .localCountIncrement inputs receiveData => Sys2Proof.Machine.execLocalCountIncrement inputs receiveData s
  | .lineReleaseAfterFramingError => Sys2Proof.Machine.execLineRelease s

end Sys2Proof.Machine
end

