-- ==== Sys2Proof/Machine/Port.lean ====
section
/-! DEFINITION. A whole transaction as the host sees it on the SPI port: the bytes it clocks in name the command, and each
of them clocks a byte out, bit by bit on the data output (R165 to R168). -/

namespace Sys2Proof.Machine

/-- The state a command answers. -/
def State.after (s : State) (c : Instr) : State :=
  match exec c s with
  | .next t => t
  | .fault _ => s
  | .refused _ => s

/-- R165, R166: the state once the host has clocked in `bytes` after the fall of chip select. -/
def State.clockIn (s : State) (bytes : List Byte) : State :=
  match hostCommand bytes with
  | some c => (s.after .transactionStart).after c
  | none => s.after .transactionStart

/-- R166, R168: the parameter bytes the port takes after a command byte; none after one that Table 1-11 does not list. -/
def parametersAfter (command : Byte) : Nat := (parameterCount command).getD 0

/-- R165 to R167: the byte clocked out while the host clocks in byte `k` of `bytes`, where the transaction was begun: the
latched status byte, 0x00 for each parameter, then the reply, and 0x00 once it is complete. -/
def State.clockedOut (s : State) (bytes : List Byte) (k : Nat) : Byte :=
  match k, bytes with
  | 0, _ => (s.after .transactionStart).host.status
  | _ + 1, [] => 0
  | k + 1, command :: _ =>
    if k < parametersAfter command then 0
    else (s.clockIn bytes).host.reply.getD (k - parametersAfter command) 0

/-- R167: the state after a whole transaction in which the host clocks in `bytes`. -/
def State.transact (s : State) (bytes : List Byte) : State := (s.clockIn bytes).after .transactionEnd

/-! ### The data output (R165) -/

/-- 10: bit `n` of a byte in the order of sending, the most significant bit first. -/
def serialBit (b : Byte) (n : Nat) : Bool := b.getLsbD (7 - n)

/-- R165, R166, R167: the data output, none where it is not driven. It stands at bit `bit` of what the port has to send:
counted from the fall of chip select until a command is taken, and from then on from the first bit of the reply. What
it does while chip select is active and the port ignores it is free (log 33). -/
def State.dataOutput (s : State) (bit : Nat) : Option Bool :=
  match s.host.stage with
  | .idle => none
  | .opened => some (serialBit (if bit < 8 then s.host.status else 0) (bit % 8))
  | .replied => some (serialBit (s.host.reply.getD (bit / 8) 0) (bit % 8))
  | .ignored => Config.outputIgnoring bit

/-- R165 to R167, SPI mode 0: the data output of the transaction that begins here and in which the host clocks in `bytes`,
after `falls` falling edges of the serial clock: the first bit is presented at the fall of chip select, and each falling
edge brings the next. The command is taken at the rising edge before the one that brings the first bit of its reply. -/
def State.serialOutput (s : State) (bytes : List Byte) (falls : Nat) : Option Bool :=
  match hostCommand bytes with
  | none => (s.after .transactionStart).dataOutput falls
  | some c =>
    if falls < 8 * c.hostBytes.length then (s.after .transactionStart).dataOutput falls
    else (s.clockIn bytes).dataOutput (falls - 8 * c.hostBytes.length)

end Sys2Proof.Machine
end

