-- ==== Sys2Proof/Safety.lean ====
section
/-! DEFINITION. What counts as a good state of a station and a legal frame, in the terms the statements
use. -/

namespace Sys2Proof.Machine

/-! ### Setup values -/

/-- R149: a stream's setup values are ones Table 10-2 gives. -/
def StreamSetup.valid (x : StreamSetup) : Prop := 1 ≤ x.idleTimeout ∧ x.idleTimeout ≤ 1000

/-- R171: the numbers among the setup values are ones Table 10-2 gives; the other items have no other
values. -/
structure Setup.Valid (c : Setup) : Prop where
  clockDivider : 1 ≤ c.clockDivider ∧ c.clockDivider ≤ 64
  bitTime : 1 ≤ c.bitTime ∧ c.bitTime ≤ 100
  slotWidth : 4 ≤ c.slotWidth ∧ c.slotWidth ≤ 64
  delayCompensation : c.delayCompensation ≤ 255
  beaconInterval : 5 ≤ c.beaconInterval ∧ c.beaconInterval ≤ 1000
  silenceTimeout : 10 ≤ c.silenceTimeout ∧ c.silenceTimeout ≤ 10000
  expelTimeout : 100 ≤ c.expelTimeout ∧ c.expelTimeout ≤ 60000
  agreementPeriod : 10 ≤ c.agreementPeriod ∧ c.agreementPeriod ≤ 1000
  precisionBound : 5 ≤ c.precisionBound ∧ c.precisionBound ≤ 1000
  stepLimit : 10 ≤ c.stepLimit ∧ c.stepLimit ≤ 5000
  requestTimeout : 1 ≤ c.requestTimeout ∧ c.requestTimeout ≤ 100
  maxTries : 1 ≤ c.maxTries ∧ c.maxTries ≤ 7
  debounce : c.debounce ≤ 65535
  streamA : c.streamA.valid
  streamB : c.streamB.valid

/-! ### Capacities and counts -/

/-- Every queue, table and pool holds no more than its rule allows, and every bounded count stays within its
bound (R32, R34, R35, R79 to R81, R88, R97, R120, R125, R148). -/
structure State.WithinCapacity (s : State) : Prop where
  outq : s.outbound.outq.length ≤ outqCapacity
  history : s.outbound.history.length ≤ historyCapacity
  jobs : s.outbound.jobs.length ≤ jobCapacity
  gaps : s.sequencer.gaps.length ≤ gapCapacity
  notes : s.urgent.notes.length ≤ noteCapacity
  pool : s.journal.pool.length ≤ poolCapacity
  streamA : s.journal.streamA.entries.length ≤ streamCapacity
  streamB : s.journal.streamB.entries.length ≤ streamCapacity
  sentCount : s.outbound.sentCount ≤ sentCountCap
  failures : s.line.failures ≤ muteFailures
  backoff : s.line.backoff ≤ backoffCap
  goodRun : s.line.goodRun ≤ goodRunCap

/-! ### Flags that say something is held -/

/-- R121: the overflow flag is set only while notes are queued; R157: a timeout flag only while its stream
holds entries. -/
structure State.FlagsHold (s : State) : Prop where
  overflow : s.urgent.overflow = true → s.urgent.notes ≠ []
  timeoutA : s.journal.streamA.timeout = true → s.journal.streamA.entries ≠ []
  timeoutB : s.journal.streamB.timeout = true → s.journal.streamB.entries ≠ []

/-! ### Agreement of the tables -/

/-- R92, R93: the sequencer holds an entry for a peer exactly while the roster does not hold it ABSENT, of
the same incarnation; none for the own station. -/
structure State.TablesAgree (s : State) : Prop where
  own : s.seqEntry s.own = none
  peer : ∀ i, i ≠ s.own → ((s.seqEntry i).isSome ↔ (s.entry i).state ≠ .absent)
  incarnation : ∀ i q, i ≠ s.own → s.seqEntry i = some q → q.incarnation = (s.entry i).incarnation

/-- R64: the own entry is LIVE exactly while the mode is ACTIVE or LEAVING, and ABSENT otherwise. -/
def State.OwnEntryRight (s : State) : Prop :=
  (s.entry s.own).state = if s.mode.working then .live else .absent

/-- R80, R81: OUTQ holds consecutive sequence numbers ending one below the own next sequence. -/
def State.OutqNumbered (s : State) : Prop :=
  ∀ (k : Nat) (r : Record), s.outbound.outq[k]? = some r → r.seq = s.outbound.firstUnsent + BitVec.ofNat 16 k

/-- R18, R37: a frame is in flight only in ACTIVE and LEAVING, with the line TRANSMITTING and the transmitter
READY. -/
def State.FlightRight (s : State) : Prop :=
  ∀ f, s.line.flight = some f →
    s.mode.working = true ∧ s.line.lineState = .transmitting ∧ s.line.transmitter = .ready

/-- R20, R73, R75: pending states exist only in ACTIVE. -/
def State.PendingRight (s : State) : Prop :=
  ∀ i, s.pendingEdge i ≠ none → s.mode = .active

/-- R40: the slew debt is at most four times the step limit. -/
def State.DebtBounded (s : State) : Prop := s.clock.debt ≤ 4 * s.setup.stepLimit

/-- R19, R41, R54, R79, R92, R124, R127, R148, R160: in SETUP nothing of a session is held. -/
structure State.SetupClear (s : State) : Prop where
  /-- R41, R182: FREE, D and the last m 0, the timer stopped, and ST following L from the same value -/
  clock : s.clock = { Clock.initial with l := s.clock.l, st := s.clock.l }
  /-- R75, R79 -/
  capture : s.capture = { Capture.initial with levels := s.capture.levels, sampled := s.capture.sampled }
  roster : s.roster = Roster.initial
  outbound : s.outbound = Outbound.initial
  sequencer : s.sequencer = Sequencer.initial
  urgent : s.urgent = Urgent.initial
  journal : s.journal = Journal.initial
  line : s.line = Line.initial
  counters : s.counters = Counters.initial
  lossAdvanced : s.lossAdvanced = false
  clockChanged : s.clockChanged = false

/-- In SETUP nothing of a session is held. -/
def State.ClearInSetup (s : State) : Prop := s.mode = .setup → s.SetupClear

/-! ### The two invariants of the statements -/

/-- What the stores hold: capacities, the sizes of gaps and the station order of their table (R97), and flags that say
something is held. -/
structure State.StoresRight (s : State) : Prop where
  /-- R97: a gap misses 1 to 1,024 numbers -/
  gapSize : ∀ g ∈ s.sequencer.gaps, 1 ≤ g.count ∧ g.count ≤ longestGap
  gapOrder : s.sequencer.gaps.Pairwise fun a b => a.station ≤ b.station
  capacity : s.WithinCapacity
  flags : s.FlagsHold

/-- How the blocks' states go together: the tables, the own entry, a frame in flight, pending states, the slew
debt, and SETUP. -/
structure State.BlocksRight (s : State) : Prop where
  tables : s.TablesAgree
  ownEntry : s.OwnEntryRight
  flight : s.FlightRight
  pendingEdges : s.PendingRight
  debt : s.DebtBounded
  clear : s.ClearInSetup

/-! ### Frames of a statement: what a step leaves alone -/

/-- `t` is `s` but for the journal, the counters and loss-advanced: what delivering and releasing change. -/
def OnlyJournal (s t : State) : Prop :=
  { t with journal := s.journal, counters := s.counters, lossAdvanced := s.lossAdvanced } = s

/-- `t` is `s` but for the urgent notes, the journal, the counters and loss-advanced: what taking a record into
the journal path changes. -/
def OnlyJournalPath (s t : State) : Prop :=
  { t with urgent := s.urgent, journal := s.journal, counters := s.counters, lossAdvanced := s.lossAdvanced } = s

/-! ### The line, as the statements speak of it -/

/-- R33: what a frame end does to the transmitter of a line `n`, and that it leaves the rest of line access alone. -/
structure FrameEndCounts (n u : Line) : Prop where
  /-- a frame end that counts lowers the count -/
  lowers : n.skipFrameEnd = false → n.transmitter = .backoff → 2 ≤ n.backoff →
    u.transmitter = .backoff ∧ u.backoff = n.backoff - 1
  /-- the last one makes the transmitter READY -/
  ends : n.skipFrameEnd = false → n.transmitter = .backoff → n.backoff ≤ 1 →
    u.transmitter = .ready ∧ u.backoff = 0
  /-- the frame end of the frame a failed attempt left open does not count -/
  skips : n.skipFrameEnd = true → u.transmitter = n.transmitter ∧ u.backoff = n.backoff
  /-- outside BACKOFF there is nothing to count -/
  others : n.transmitter ≠ .backoff → u.transmitter = n.transmitter ∧ u.backoff = n.backoff
  once : u.skipFrameEnd = false
  rest : { u with transmitter := n.transmitter, backoff := n.backoff, skipFrameEnd := n.skipFrameEnd } = n

/-- The line after one microsecond of L for each element of a list, from L = `l` on: ST in the microsecond, and the level
read in it; `before` is the level read before the first. -/
def Line.passRun (bitTime : Nat) (n : Line) (l : Time) (before : Bool) : List (Time × Bool) → Line
  | [] => n
  | (st, level) :: rest => (n.passMicrosecond bitTime st l before level).passRun bitTime (l + 1) level rest

/-! ### Tables of the host port, written out once more from the spec -/

/-- The commands the host port takes: those of Table 1-11, and BAD_COMMAND. -/
def isHostCommand : Instr → Bool
  | .readStream _ _ | .readLatch _ | .readUrgent | .readRoster _ | .readChanges | .readClock | .readCounters _
  | .clearCounters | .setupWrite _ _ _ | .setupRead _ _ | .commit | .submit _ _ _ _ | .unmute | .leave | .restart
  | .badCommand _ => true
  | .fullReset _ | .transactionStart | .transactionEnd | .frameEnd _ _ | .opportunity | .completion
  | .failedAttempt _ | .emptyRotation | .leaveTimerExpiry | .agreementPoint | .silenceTimerExpiry _
  | .expelTimerExpiry _ | .edge _ _ | .debounceExpiry _ | .beaconTimerExpiry | .gapDeadline _ _
  | .orderedRelease | .idleTimerExpiry _ | .frameStart | .localCountIncrement _ _
  | .lineReleaseAfterFramingError => false

/-- Table 10-1: the commands that some station mode answers NOT-NOW, with the one mode that answers them. -/
def onlyMode : Instr → Option Mode
  | .setupWrite _ _ _ | .setupRead _ _ | .commit => some .setup
  | .submit _ _ _ _ | .leave => some .active
  | .readStream _ _ | .readLatch _ | .readUrgent | .readRoster _ | .readChanges | .readClock | .readCounters _
  | .clearCounters | .unmute | .restart | .badCommand _ | .fullReset _ | .transactionStart | .transactionEnd
  | .frameEnd _ _ | .opportunity | .completion | .failedAttempt _ | .emptyRotation | .leaveTimerExpiry
  | .agreementPoint | .silenceTimerExpiry _ | .expelTimerExpiry _ | .edge _ _ | .debounceExpiry _
  | .beaconTimerExpiry | .gapDeadline _ _ | .orderedRelease | .idleTimerExpiry _ | .frameStart
  | .localCountIncrement _ _ | .lineReleaseAfterFramingError => none

/-- Table 10-2: the values the table gives for an item number and an index, as numbers. -/
def tableAllows (item index value : Nat) : Bool :=
  if 64 ≤ item ∧ item ≤ 111 then
    match index with
    | 0 => decide (value ≤ 3)
    | 1 => decide (value ≤ 262143)
    | 2 => decide (value ≤ 262143)
    | 3 => decide (value ≤ 3)
    | 4 => decide (value ≤ 15)
    | 5 => decide (value ≤ 1)
    | _ => false
  else
    match item with
    | 16 => decide (index ≤ 15 ∧ value ≤ 3)
    | 26 => decide (index ≤ 1 ∧ value ≤ 1)
    | 27 => decide (index ≤ 1 ∧ (value = 1 ∨ value = 4 ∨ value = 16 ∨ value = 48))
    | 28 => decide (index ≤ 1 ∧ 1 ≤ value ∧ value ≤ 1000)
    | 1 => decide (index = 0 ∧ value ≤ 31)
    | 2 => decide (index = 0 ∧ value ≤ 255)
    | 3 => decide (index = 0 ∧ 1 ≤ value ∧ value ≤ 64)
    | 4 => decide (index = 0 ∧ 1 ≤ value ∧ value ≤ 100)
    | 5 => decide (index = 0 ∧ 4 ≤ value ∧ value ≤ 64)
    | 6 => decide (index = 0 ∧ value ≤ 255)
    | 7 => decide (index = 0 ∧ 5 ≤ value ∧ value ≤ 1000)
    | 8 => decide (index = 0 ∧ 10 ≤ value ∧ value ≤ 10000)
    | 9 => decide (index = 0 ∧ 100 ≤ value ∧ value ≤ 60000)
    | 10 => decide (index = 0 ∧ 10 ≤ value ∧ value ≤ 1000)
    | 11 => decide (index = 0 ∧ 5 ≤ value ∧ value ≤ 1000)
    | 12 => decide (index = 0 ∧ 10 ≤ value ∧ value ≤ 5000)
    | 13 => decide (index = 0 ∧ 1 ≤ value ∧ value ≤ 100)
    | 14 => decide (index = 0 ∧ 1 ≤ value ∧ value ≤ 7)
    | 15 => decide (index = 0 ∧ value ≤ 65535)
    | 23 => decide (index = 0 ∧ value ≤ 2)
    | 24 => decide (index = 0 ∧ value ≤ 1)
    | 25 => decide (index = 0 ∧ value ≤ 1)
    | 29 => decide (index = 0 ∧ value ≤ 127)
    | _ => false

/-- Table 10-2: the defaults of the items, as numbers. -/
def tableDefault (item : Nat) : Nat :=
  match item with
  | 3 => 16
  | 4 => 4
  | 5 => 8
  | 7 => 50
  | 8 => 200
  | 9 => 10000
  | 10 => 100
  | 11 => 50
  | 12 => 200
  | 13 => 5
  | 14 => 3
  | 15 => 1000
  | 24 => 1
  | 26 => 1
  | 27 => 1
  | 28 => 10
  | 29 => 127
  | _ => 0

/-- The counters of a group of Table 10-5, in order, two bytes each. -/
def groupBytes (c : Counters) (group : List Counter) : List Byte :=
  group.flatMap fun k => leBytes 2 (c.get k).toNat

/-! ### Legal frames (R6 to R12) -/

/-- R10: a loss field is 1 to 255. -/
def EventData.legal (d : EventData) : Prop := d.loss ≠ some 0

/-- R12: what the contents of a good frame satisfy. -/
def Body.legal : Body → Prop
  | .event _ _ recs => 1 ≤ recs.length ∧ recs.length ≤ recordsPerFrame ∧ ∀ d ∈ recs, d.legal
  | .beacon _ _ _ => True
  | .request _ _ ranges =>
    1 ≤ ranges.length ∧ ranges.length ≤ rangesPerRequest ∧ ∀ r ∈ ranges, r.count ≠ 0
  | .repeatRecords _ recs => 1 ≤ recs.length ∧ recs.length ≤ recordsPerFrame ∧ ∀ d ∈ recs, d.legal
  | .repeatGone _ count => count ≠ 0

/-! ### Contents that break a rule (R12) -/

/-- R10: how many bytes a record has whose first byte is `flags`. -/
def recordLength (flags : Byte) : Nat :=
  8 + (if flags.getLsbD 5 then 2 else 0) + if flags.getLsbD 7 then 1 else 0

/-- R12: `n` records, each as long as its own flags make it and none with a loss field of 0, fill the bytes exactly. -/
def recordsFill : Nat → List Byte → Bool
  | 0, bs => bs.isEmpty
  | _ + 1, [] => false
  | n + 1, flags :: rest =>
    decide (recordLength flags ≤ rest.length + 1)
      && !(flags.getLsbD 7 && (flags :: rest)[recordLength flags - 1]? == some 0)
      && recordsFill n ((flags :: rest).drop (recordLength flags))

/-- R12: a count of records 1 to 8 stands at an offset of the body, and that many records fill the bytes after it. -/
def recordsRight (offset : Nat) (body : List Byte) : Bool :=
  match body[offset]? with
  | none => false
  | some count => decide (1 ≤ count.toNat ∧ count.toNat ≤ 8) && recordsFill count.toNat (body.drop (offset + 1))

/-- R12: the body of a REQUEST: a target up to 31, 1 to 4 ranges, three bytes to each, and no range of none. -/
def rangesRight (body : List Byte) : Bool :=
  match body[0]?, body[2]? with
  | some target, some count =>
    decide (target.toNat ≤ 31 ∧ 1 ≤ count.toNat ∧ count.toNat ≤ 4 ∧ body.length = 3 + 3 * count.toNat)
      && (List.range count.toNat).all fun k => body[5 + 3 * k]? != some 0
  | _, _ => false

/-- R12: the contents break none of its rules, by the kind byte and the body. -/
def contentsRight (kind : Byte) (body : List Byte) : Bool :=
  !kind.getLsbD 6 && !kind.getLsbD 7 && (!kind.getLsbD 4 || kind.toNat % 8 == 2)
    && (!kind.getLsbD 5 || kind.toNat % 8 == 4)
    && match kind.toNat % 8 with
      | 1 => recordsRight 8 body
      | 2 => body.length == 8
      | 3 => rangesRight body
      | 4 => if kind.getLsbD 5 then body.length == 3 && body[2]? != some 0 else recordsRight 2 body
      | _ => false

/-! ### Safe runs -/

/-- A run of the machine goes on safely when each of its steps answers a next state in which every store is within
its capacity. -/
def SafeStep (s : State) : Prop := ∃ t, step s = .next t ∧ t.WithinCapacity

end Sys2Proof.Machine
end

