-- ==== Sys2Proof/WellFormed.lean ====
section
/-! DEFINITION. Which commands are well formed: the rows' own conditions on their operands. A command that
is not well formed names no event of the part, and its meaning changes nothing (log 3). -/

namespace Sys2Proof

/-- R3, Table 1-1: the bits of the longest frame, ten to each of its 110 bytes. -/
def maxFrameBits : Nat := 1100

/-- A BAD_COMMAND byte is not in Table 1-11 (R168), and the bit of a FAILED_ATTEMPT is one of a frame (R3). Every other operand is checked by the part itself, which answers RANGE, or has no illegal value. -/
def wellFormed (i : Instr) : Bool :=
  match i with
  | .badCommand b => (parameterCount b).isNone
  | .failedAttempt bit => decide (bit < maxFrameBits)
  | .fullReset _ | .transactionStart | .transactionEnd | .readStream _ _ | .readLatch _ | .readUrgent
  | .readRoster _ | .readChanges | .readClock | .readCounters _ | .clearCounters | .setupWrite _ _ _
  | .setupRead _ _ | .commit | .submit _ _ _ _ | .unmute | .leave | .restart | .frameEnd _ _ | .opportunity
  | .completion | .emptyRotation | .leaveTimerExpiry | .agreementPoint | .silenceTimerExpiry _
  | .expelTimerExpiry _ | .edge _ _ | .debounceExpiry _ | .beaconTimerExpiry | .gapDeadline _ _
  | .orderedRelease | .idleTimerExpiry _ | .frameStart | .localCountIncrement _ _
  | .lineReleaseAfterFramingError => true

/-- A well-formed command. -/
abbrev WellFormed (i : Instr) : Prop := wellFormed i = true

end Sys2Proof
end

