-- ==== Sys2Proof/Certificates/Slice0/Obligations.lean ====
section
/-! DEFINITION. The statements about the ZS-24, each a proposition over the model. OBLIGATIONS.json lists
them. -/

open Sys2Proof Sys2Proof.Machine

/-! ### The queue and the transactions -/

/-- A step runs the command at the front of the queue on the state with the queue's rest. -/
def Obligations.StepRunsFrontCommand : Prop :=
  ∀ (c : Instr) (rest : List Instr) (s : State),
    step { s with pending := c :: rest } = exec c { s with pending := rest }

/-- Every command completes: it answers a next state, and leaves the queue alone. That a command answers a next state too
for an event whose instant or condition has not come is the model's choice (log 3), and so is the queue (log 20). -/
def Obligations.CommandsCompleteAndKeepQueue : Prop :=
  ∀ (c : Instr) (s : State), ∃ t, exec c s = .next t ∧ t.pending = s.pending

/-- R165, R166, R167, R185: the start of a transaction opens it and latches the status byte; its end closes it, loses the
rest of the reply and undoes nothing; a second fall of chip select does not occur within a transaction (log 3), and one
while RST is held is ignored to its end. The port takes a command only in an open transaction that has taken none. The
data output is not driven while chip select is inactive; at the fall of chip select it presents the first bit of the
status byte, then the others, and zeros until a command is taken. -/
def Obligations.TransactionFraming : Prop :=
  ∀ s : State,
    (s.host.stage = .idle → s.inReset = false →
      exec .transactionStart s = .next { s with host := ⟨.opened, s.statusByte, []⟩ }) ∧
    (s.host.stage ≠ .idle → exec .transactionStart s = .next s) ∧
    (s.host.stage = .idle → s.inReset = true →
      exec .transactionStart s = .next { s with host := { s.host with stage := .ignored } }) ∧
    exec .transactionEnd s = .next { s with host := ⟨.idle, s.host.status, []⟩ } ∧
    (s.host.stage = .idle → ∀ bit, s.dataOutput bit = none) ∧
    (∀ bit, ({ s with host := ⟨.idle, s.host.status, []⟩ } : State).dataOutput bit = none) ∧
    (∀ bit, ({ s with host := ⟨.opened, s.statusByte, []⟩ } : State).dataOutput bit =
      some (decide (bit < 8) && s.statusByte.getLsbD (7 - bit))) ∧
    ∀ c : Instr, isHostCommand c = true → s.host.stage ≠ .opened → exec c s = .next s

/-- R170: the three fields of the status byte that TRANSACTION_START latches. A cause counts as enabled when it is
pending and bit n − 1 of the mask is set. -/
def Obligations.StatusByteReportsState : Prop :=
  ∀ s : State, s.host.stage = .idle → s.inReset = false →
    ∃ b : Byte, exec .transactionStart s = .next { s with host := ⟨.opened, b, []⟩ } ∧
      (∀ n, 1 ≤ n → n ≤ 7 →
        (b.toNat % 8 = n ↔
          (s.causePending n = true ∧ s.setup.attentionMask.getLsbD (n - 1) = true) ∧
          ∀ m, 1 ≤ m → m < n → ¬(s.causePending m = true ∧ s.setup.attentionMask.getLsbD (m - 1) = true))) ∧
      (b.toNat % 8 = 0 ↔
        ∀ m, 1 ≤ m → m ≤ 7 → ¬(s.causePending m = true ∧ s.setup.attentionMask.getLsbD (m - 1) = true)) ∧
      b.toNat / 8 % 8 =
        (match s.mode with | .setup => 0 | .listening => 1 | .active => 2 | .leaving => 3 | .stopped => 4) ∧
      (b.getLsbD 6 = true ↔ s.line.transmitter = .mute) ∧
      b.getLsbD 7 = false

/-- R175, R176, R178, R158, R123: when each cause is pending, when ATTN is active, and that its output is low then and
high otherwise. -/
def Obligations.CausesAndAttn : Prop :=
  ∀ s : State,
    (s.causePending 1 = true ↔ s.line.transmitter = .mute ∨ s.mode = .stopped) ∧
    (s.causePending 2 = true ↔ s.urgent.notes ≠ []) ∧
    (s.causePending 3 = true ↔
      s.setup.streamA.threshold.toNat ≤ s.journal.streamA.entries.length ∨ s.journal.streamA.timeout = true) ∧
    (s.causePending 4 = true ↔
      s.setup.streamB.threshold.toNat ≤ s.journal.streamB.entries.length ∨ s.journal.streamB.timeout = true) ∧
    (s.causePending 5 = true ↔ s.lossAdvanced = true) ∧
    (s.causePending 6 = true ↔ ∃ i : Station, (s.entry i).mark = true) ∧
    (s.causePending 7 = true ↔ s.clockChanged = true) ∧
    (s.attn = true ↔
      ∃ n, 1 ≤ n ∧ n ≤ 7 ∧ s.causePending n = true ∧ s.setup.attentionMask.getLsbD (n - 1) = true) ∧
    (s.attn = true → s.attnLevel = false) ∧ (s.attn = false → s.attnLevel = true)

/-! ### Resets -/

/-- R185, R186, R75, with the values every chapter gives for a full reset: RST released, and RST held, under which the
part stands in the same state and takes nothing; only chip select is followed, whose transactions are ignored and outside of
which the data output is not driven (R165). The queue is the model's own and is kept; the latched status byte, the
reply and the receive stamps are the model's choice (log 19), and so is it that the levels kept stand until the first
increment samples anew (log 15). -/
def Obligations.FullResetState : Prop :=
  ∀ s : State,
    (∀ cs : Bool, ∃ t, exec (.fullReset (.released cs)) s = .next t ∧
      t.pending = s.pending ∧ t.inReset = false ∧ t.receiveData = s.receiveData ∧
      t.host = ⟨if cs then .ignored else .idle, 0, []⟩ ∧
      (∀ item index : Byte, ∀ it, addressedItem item index = some it →
        t.setup.get it index.toNat = tableDefault item.toNat) ∧
      (t.line.mode = .setup ∧ t.line.lineState = .idle ∧ t.line.reference = none ∧ t.line.idle = 0 ∧
        t.line.transmitter = .ready ∧ t.line.failures = 0 ∧ t.line.backoff = 0 ∧ t.line.goodRun = 0 ∧
        t.line.observed = false ∧ t.line.leaveTimer = none ∧ t.line.flight = none ∧
        t.line.receiver = ⟨.searching, [], false, 0, 0⟩) ∧
      (t.clock.l = 0 ∧ t.clock.st = 0 ∧ t.clock.debt = 0 ∧ t.clock.state = .free ∧ t.clock.goodPoints = 0 ∧
        t.clock.alonePoints = 0 ∧ t.clock.lastDecision = 0 ∧ t.clock.lastDecisionL = 0 ∧ t.clock.lastM = 0 ∧
        t.clock.firstPoint = false ∧ t.clock.nextPoint = none ∧ t.clock.uncorrected = none) ∧
      (∀ i : Station, t.entry i = ⟨.absent, 0, 0, 0, none, false⟩ ∧ t.seqEntry i = none) ∧
      t.sequencer.gaps = [] ∧
      (∀ i : InputNo, t.pendingEdge i = none) ∧ t.capture.levels = s.capture.levels ∧ t.capture.sampled = false ∧
      t.capture.lossCount = 0 ∧
      t.outbound = ⟨0, 0, [], [], [], none, false, 0⟩ ∧
      t.urgent = ⟨[], false⟩ ∧
      t.journal.pool = [] ∧ t.journal.through = 0 ∧
      (∀ id : StreamId, t.stream id = ⟨[], 0, false, none⟩) ∧
      (∀ n : SlotNo, t.journal.latches[n.val] = none) ∧
      (∀ c : Counter, t.counters.get c = 0) ∧ t.lossAdvanced = false ∧ t.clockChanged = false ∧
      t.attn = false ∧ t.attnLevel = true ∧ t.driverEnable = false ∧ t.transmitData = true) ∧
    ∃ t, exec (.fullReset .held) s = .next t ∧ t.inReset = true ∧
      t.host = ⟨if s.host.stage = .idle then .idle else .ignored, 0, []⟩ ∧
      exec (.fullReset (.released false)) s = .next { t with inReset := false, host := ⟨.idle, 0, []⟩ } ∧
      t.clock.l = 0 ∧ t.attn = false ∧ t.attnLevel = true ∧ t.driverEnable = false ∧ t.transmitData = true ∧
      (s.host.stage = .idle → ∀ bit, t.dataOutput bit = none) ∧
      ∀ u : State, (∃ stage, u = { t with host := ⟨stage, 0, []⟩ } ∧ (stage = .idle ∨ stage = .ignored)) →
        exec .transactionStart u = .next { t with host := ⟨.ignored, 0, []⟩ } ∧
        exec .transactionEnd u = .next { t with host := ⟨.idle, 0, []⟩ } ∧
        ∀ c : Instr, (∀ r, c ≠ .fullReset r) → c ≠ .transactionStart → c ≠ .transactionEnd → exec c u = .next u

/-- R184, R38, R41, R79, R23, R187: RESTART, taken in any mode, leaves the state of a full reset but for the queue, the
setup values, L with ST at L, the sampled levels and the transaction, which goes on with the result OK. The completion of
the LEAVING BEACON and the expiry of the leave timer (at or after its instant, log 3) both leave that state, without a
reply. The level at the receive-data input is the pin's, and stays. -/
def Obligations.SessionEnds : Prop :=
  ∀ s : State,
    (s.host.stage = .opened →
      ∃ t, exec .restart s = .next t ∧
        t = { State.reset with
          pending := s.pending
          setup := s.setup
          clock := { Clock.initial with l := s.clock.l, st := s.clock.l }
          capture := { Capture.initial with levels := s.capture.levels, sampled := s.capture.sampled }
          host := ⟨.replied, s.host.status, [0]⟩
          receiveData := s.receiveData } ∧
        t.attn = false ∧ t.attnLevel = true ∧ t.driverEnable = false ∧ t.transmitData = true) ∧
    (∀ (f : Flight) wm next, s.line.flight = some f → f.frame.body = .beacon wm next true → f.mismatch = none →
      10 * f.frame.toBytes.length * s.setup.bitTime ≤ (s.l - f.startL).toNat →
      exec .completion s = .next s.endSession) ∧
    (∀ e, s.line.leaveTimer = some e → s.mode = .leaving → (s.l - e).toNat < 2 ^ 47 →
      exec .leaveTimerExpiry s = .next s.endSession) ∧
    s.endSession = { State.reset with
      pending := s.pending
      setup := s.setup
      clock := { Clock.initial with l := s.clock.l, st := s.clock.l }
      capture := { Capture.initial with levels := s.capture.levels, sampled := s.capture.sampled }
      host := s.host
      receiveData := s.receiveData }

/-! ### Reads -/

/-- R153, R154: READ-STREAM is refused with RANGE for its stream byte and its maximum, is answered EMPTY by an empty
stream, and otherwise gives the oldest entries, clears the timeout flag and lets release resume. OK and EMPTY restart the
idle timer (which stays stopped in SETUP, log 24); outside ACTIVE and LEAVING nothing is released. -/
def Obligations.ReadStreamTakesOldest : Prop :=
  ∀ s : State, s.host.stage = .opened →
    (∀ b max : Byte, 1 < b.toNat → exec (.readStream b max) s = .next (s.answer .outOfRange [])) ∧
    (∀ b max : Byte, b.toNat ≤ 1 → max.toNat = 0 ∨ 64 < max.toNat →
      exec (.readStream b max) s = .next (s.answer .outOfRange [])) ∧
    ∀ (b max : Byte) (id : StreamId) (timer : Option Time),
      b = 0 ∧ id = .a ∨ b = 1 ∧ id = .b → 1 ≤ max.toNat → max.toNat ≤ 64 →
      (timer =
        if s.mode = Mode.setup then (s.stream id).idleTimer
        else some (s.l + millis (s.setup.stream id).idleTimeout)) →
      ((s.stream id).entries = [] →
        exec (.readStream b max) s =
          .next (({ s with
            journal := s.journal.setStream id { s.stream id with idleTimer := timer } }).answer .empty [])) ∧
      ((s.stream id).entries ≠ [] →
        ∃ u t, exec (.readStream b max) s = .next t ∧
          u = { s with
            journal := s.journal.setStream id
              { s.stream id with
                entries := (s.stream id).entries.drop max.toNat, timeout := false, idleTimer := timer }
            host := ⟨.replied, s.host.status,
              0 :: BitVec.ofNat 8 (min max.toNat (s.stream id).entries.length) ::
                ((s.stream id).entries.take max.toNat).flatMap JournalEntry.toBytes⟩ } ∧
          t = u.releaseReady ∧ OnlyJournal u t ∧
          (∃ more, (t.stream id).entries = (s.stream id).entries.drop max.toNat ++ more) ∧
          (t.stream id).timeout = false ∧
          (s.mode.working = false → t = u))

/-- R162, R121: READ-LATCH returns a slot's fresh flag and record and clears the flag; READ-URGENT removes the oldest
note. That the overflow flag is clear with the queue empty rests on the invariant `StoresStayRight`; that slots and queue
are empty in SETUP on `BlocksStayRight`. -/
def Obligations.LatchAndNoteReads : Prop :=
  ∀ s : State, s.host.stage = .opened →
    (∀ b : Byte,
      (15 < b.toNat → exec (.readLatch b) s = .next (s.answer .outOfRange [])) ∧
      (∀ n : SlotNo, n.val = b.toNat →
        (s.journal.latches[n.val] = none → exec (.readLatch b) s = .next (s.answer .empty [])) ∧
        (s.ClearInSetup → s.mode = .setup → exec (.readLatch b) s = .next (s.answer .empty [])) ∧
        ∀ x : Latch, s.journal.latches[n.val] = some x →
          exec (.readLatch b) s =
            .next (({ s with
              journal :=
                { s.journal with
                  latches := s.journal.latches.set n.val (some ⟨x.record, x.forced, false⟩) } }).answer .ok
              ((if x.fresh then 1 else 0) :: x.record.toBytes false x.forced none)))) ∧
    (∀ n rest, s.urgent.notes = n :: rest →
      exec .readUrgent s =
        .next (({ s with
          urgent := ⟨rest, if rest = [] then false else s.urgent.overflow⟩ }).answer .ok
          (n.toBytes s.urgent.overflow))) ∧
    (s.urgent.notes = [] → exec .readUrgent s = .next (s.answer .empty [])) ∧
    (s.FlagsHold → s.urgent.notes = [] → s.urgent.overflow = false) ∧
    (s.ClearInSetup → s.mode = .setup → exec .readUrgent s = .next (s.answer .empty []))

/-- R67, R68, Table 1-11: READ-ROSTER above 31 is refused, and otherwise answers 24 data bytes, field by field. An offset
outside 48 bits is the free value of log 11, inside `signedField`. -/
def Obligations.ReadRosterFields : Prop :=
  ∀ (s : State) (b : Byte), s.host.stage = .opened →
    (31 < b.toNat → exec (.readRoster b) s = .next (s.answer .outOfRange [])) ∧
    ∀ i : Station, i.val = b.toNat →
    ∃ d : List Byte, exec (.readRoster b) s = .next (s.answer .ok d) ∧ d.length = 24 ∧
      (i ≠ s.own →
        d[0]? = some (match (s.entry i).state with | .absent => (0 : Byte) | .joining => 1 | .live => 2 | .silent => 3) ∧
        d[1]? = some (s.entry i).incarnation ∧
        (∃ fl, d[2]? = some fl ∧ fl.toNat < 8 ∧ fl.getLsbD 0 = (s.seqEntry i).isSome ∧
          fl.getLsbD 1 = ((s.seqEntry i).bind (·.next)).isSome ∧
          fl.getLsbD 2 = ((s.entry i).sample.map (·.agreed)).getD false) ∧
        takeField 6 (d.drop 3) = some ((s.entry i).lastHeard.toNat, d.drop 9) ∧
        takeField 6 (d.drop 9) =
          some ((signedField (((s.entry i).sample.map (·.offset)).getD 0)).toNat, d.drop 15) ∧
        takeField 2 (d.drop 15) = some ((((s.seqEntry i).bind (·.next)).getD 0).toNat, d.drop 17) ∧
        takeField 6 (d.drop 17) = some ((((s.seqEntry i).map SeqEntry.watermark).getD 0).toNat, d.drop 23) ∧
        d[23]? = some (BitVec.ofNat 8
          (s.sequencer.gaps.filter fun g =>
            g.station == i && some g.incarnation == (s.seqEntry i).map (·.incarnation)).length)) ∧
      (i = s.own →
        d[0]? = some (if s.mode = .active ∨ s.mode = .leaving then 2 else 0) ∧
        d[1]? = some (s.entry i).incarnation ∧ d[2]? = some 0 ∧
        takeField 6 (d.drop 3) = some ((s.entry i).lastHeard.toNat, d.drop 9) ∧
        takeField 6 (d.drop 9) = some (0, d.drop 15) ∧
        takeField 2 (d.drop 15) = some (s.outbound.nextSeq.toNat, d.drop 17) ∧
        takeField 6 (d.drop 17) = some (s.outbound.lastWatermark.toNat, d.drop 23) ∧ d[23]? = some 0)

/-- R66, R52, R182: READ-CHANGES reports each mark in its bit and clears every mark, and nothing else; ROSTER ends.
READ-CLOCK's data, and the one flag it clears. A last m outside 48 bits is the free value of log 11, inside
`signedField`; D is sent in two bytes. What they report in SETUP rests on the invariant `BlocksStayRight`. -/
def Obligations.ChangesAndClockReads : Prop :=
  ∀ s : State, s.host.stage = .opened →
    (∃ (t : State) (bits : BitVec 32), exec .readChanges s = .next (t.answer .ok (leBytes 4 bits.toNat)) ∧
      (∀ i : Station, bits.getLsbD i.val = (s.entry i).mark) ∧
      (∀ i : Station, t.entry i = { s.entry i with mark := false }) ∧
      { t with roster := s.roster } = s ∧
      t.causePending 6 = false ∧
      (s.ClearInSetup → s.mode = .setup → bits = 0)) ∧
    ∃ d : List Byte, exec .readClock s = .next (({ s with clockChanged := false }).answer .ok d) ∧
      d.length = 15 ∧
      d[0]? = some (match s.clock.state with | .free => (0 : Byte) | .converging => 1 | .agreed => 2) ∧
      takeField 6 (d.drop 1) = some (s.clock.st.toNat, d.drop 7) ∧
      takeField 2 (d.drop 7) = some (s.clock.debt % 65536, d.drop 9) ∧
      takeField 6 (d.drop 9) = some ((signedField s.clock.lastM).toNat, []) ∧
      (s.ClearInSetup → s.mode = .setup →
        s.clock.state = .free ∧ s.clock.debt = 0 ∧ s.clock.lastM = 0 ∧ s.clockChanged = false)

/-- R16, R17, Tables 1-7 to 1-9: the bytes of an EVENT entry, a HOLE entry and an urgent note, field by field at their
offsets, and a signed field that fits in 48 bits. -/
def Obligations.HostLayouts : Prop :=
  (∀ (r : Record) (late forced : Bool) (dropped : Option (BitVec 8)) (d : List Byte),
    d = JournalEntry.toBytes ⟨.record r, late, forced, dropped⟩ →
    (∃ fl, d[0]? = some fl ∧ fl.getLsbD 0 = false ∧ fl.getLsbD 1 = late ∧ fl.getLsbD 2 = forced ∧
      fl.getLsbD 3 = r.data.unsure ∧ fl.getLsbD 4 = r.data.value.isSome ∧ fl.getLsbD 5 = r.data.loss.isSome ∧
      fl.getLsbD 6 = dropped.isSome ∧ fl.getLsbD 7 = false) ∧
    (∃ st, d[1]? = some st ∧ st.toNat = r.station.val) ∧ d[2]? = some r.incarnation ∧
    takeField 2 (d.drop 3) = some (r.seq.toNat, d.drop 5) ∧
    (∃ ch, d[5]? = some ch ∧ ch.toNat = r.data.channel.val) ∧ d[6]? = some r.data.code ∧
    takeField 6 (d.drop 7) = some (r.data.timestamp.toNat, d.drop 13) ∧
    ∃ tail, tail = r.data.loss.toList ++ dropped.toList ∧
      (r.data.value = none → d.drop 13 = tail) ∧
      ∀ v, r.data.value = some v → takeField 2 (d.drop 13) = some (v.toNat, tail)) ∧
  (∀ (h : Hole) (late forced : Bool) (dropped : Option (BitVec 8)) (d : List Byte),
    d = JournalEntry.toBytes ⟨.hole h, late, forced, dropped⟩ →
    (∃ fl, d[0]? = some fl ∧ fl.getLsbD 0 = true ∧ fl.getLsbD 1 = late ∧ fl.getLsbD 2 = forced ∧
      fl.getLsbD 3 = false ∧ fl.getLsbD 4 = false ∧ fl.getLsbD 5 = false ∧ fl.getLsbD 6 = dropped.isSome ∧
      fl.getLsbD 7 = false) ∧
    (∃ st, d[1]? = some st ∧ st.toNat = h.station.val) ∧ d[2]? = some h.incarnation ∧
    takeField 2 (d.drop 3) = some (h.first.toNat, d.drop 5) ∧
    takeField 2 (d.drop 5) = some (h.count % 65536, d.drop 7) ∧
    d[7]? = some (match h.reason with
      | .noAnswer => (1 : Byte) | .gone => 2 | .left => 3 | .restart => 4 | .noRoom => 5 | .beyond => 6) ∧
    takeField 6 (d.drop 8) = some (h.bound.toNat, d.drop 14) ∧ d.drop 14 = dropped.toList) ∧
  (∀ (n : Note) (overflow : Bool) (d : List Byte), d = n.toBytes overflow →
    d.length = 13 ∧ d[0]? = some (if overflow then 1 else 0) ∧
    (∃ st, d[1]? = some st ∧ st.toNat = n.station.val) ∧ (∃ ch, d[2]? = some ch ∧ ch.toNat = n.channel.val) ∧
    d[3]? = some n.code ∧ takeField 2 (d.drop 4) = some (n.seq.toNat, d.drop 6) ∧
    takeField 6 (d.drop 6) = some (n.timestamp.toNat, d.drop 12) ∧
    ∃ act, d[12]? = some act ∧
      act.toNat % 4 = (match n.action with | .toA => 0 | .toB => 1 | .discard => 2 | .latch => 3) ∧
      act.toNat / 4 = if n.action = .latch then n.slot.val else 0) ∧
  ∀ v : Int, -2 ^ 47 ≤ v → v < 2 ^ 47 → (signedField v).toInt = v

/-- R180. Both orders of a counter's event and a read are two of the states the statement speaks of. -/
def Obligations.ReadCountersReply : Prop :=
  ∀ s : State, s.host.stage = .opened →
    (∀ b : Byte, b ≠ 0 → b ≠ 1 → exec (.readCounters b) s = .next (s.answer .outOfRange [])) ∧
    exec (.readCounters 0) s =
      .next (s.answer .ok
        (groupBytes s.counters
          [.framesGood, .framesBad, .attemptsFailed, .requestsSent, .requestsSuppressed, .repeatsSent,
            .duplicatesDiscarded, .jobsDropped])) ∧
    exec (.readCounters 1) s =
      .next (({ s with lossAdvanced := false }).answer .ok
        (groupBytes s.counters
          [.captureLost, .lateDropped, .forcedReleases, .holesCreated, .streamADropped, .streamBDropped,
            .urgentOverflows])) ∧
    (∀ k : Counter, ∃ d, exec (.readCounters 0) (s.count k) = .next ((s.count k).answer .ok d) ∧
      d = groupBytes (s.counters.advance k)
        [.framesGood, .framesBad, .attemptsFailed, .requestsSent, .requestsSuppressed, .repeatsSent,
          .duplicatesDiscarded, .jobsDropped])

/-- R181, R177, R179: CLEAR-COUNTERS zeroes all fifteen counters, in either order with an event. An event of Table 10-5
advances its own counter by one, holding at 65,535, and sets loss-advanced exactly when the counter is of the loss group,
held or not. -/
def Obligations.CountersAdvanceAndClear : Prop :=
  (∀ s : State, s.host.stage = .opened →
    ∃ t : State, exec .clearCounters s = .next (t.answer .ok []) ∧
      (∀ k : Counter, t.counters.get k = 0) ∧ { t with counters := s.counters } = s ∧
      (∀ k : Counter, exec .clearCounters (s.count k) =
        .next (({ t with lossAdvanced := s.lossAdvanced || k.isLoss }).answer .ok [])) ∧
      (∀ k : Counter, (t.count k).counters.get k = 1 ∧ (t.count k).lossAdvanced = (s.lossAdvanced || k.isLoss))) ∧
  ∀ (s : State) (k : Counter),
    ((s.count k).counters.get k).toNat = min 65535 ((s.counters.get k).toNat + 1) ∧
    (∀ j : Counter, j ≠ k → (s.count k).counters.get j = s.counters.get j) ∧
    ((s.count k).lossAdvanced = true ↔
      s.lossAdvanced = true ∨
        k ∈ [Counter.captureLost, .lateDropped, .forcedReleases, .holesCreated, .streamADropped, .streamBDropped,
          .urgentOverflows]) ∧
    { s.count k with counters := s.counters, lossAdvanced := s.lossAdvanced } = s

/-! ### Setup and working commands -/

/-- R172, R173, Table 10-2: in SETUP a write is answered OK exactly when the table gives the value for the item and index,
and then replaces that one item; every other write changes no setup value. A read returns the value of an item and index
that the table gives. -/
def Obligations.SetupItemsFollowTable : Prop :=
  ∀ (s : State) (item index : Byte), s.host.stage = .opened →
    (∀ v : BitVec 32,
      (s.mode ≠ .setup → exec (.setupWrite item index v) s = .next (s.answer .notNow [])) ∧
      (s.mode = .setup → tableAllows item.toNat index.toNat v.toNat = false →
        exec (.setupWrite item index v) s = .next (s.answer .outOfRange [])) ∧
      (s.mode = .setup → tableAllows item.toNat index.toNat v.toNat = true →
        ∃ c : Setup, exec (.setupWrite item index v) s = .next (({ s with setup := c }).answer .ok []) ∧
          (∀ it, addressedItem item index = some it → c.get it index.toNat = v.toNat) ∧
          ∀ (item' index' : Byte) it, addressedItem item' index' = some it → (item', index') ≠ (item, index) →
            c.get it index'.toNat = s.setup.get it index'.toNat)) ∧
    (s.mode ≠ .setup → exec (.setupRead item index) s = .next (s.answer .notNow [])) ∧
    (s.mode = .setup → (∀ v, tableAllows item.toNat index.toNat v = false) →
      exec (.setupRead item index) s = .next (s.answer .outOfRange [])) ∧
    (∀ v, tableAllows item.toNat index.toNat v = true →
      ∃ it, addressedItem item index = some it ∧
        (s.mode = .setup →
          exec (.setupRead item index) s = .next (s.answer .ok (leBytes 4 (s.setup.get it index.toNat)))) ∧
        State.reset.setup.get it index.toNat = tableDefault item.toNat ∧
        s.endSession.setup.get it index.toNat = s.setup.get it index.toNat)

/-- R174, R20, R44, R85, R156: COMMIT in SETUP runs the checks of Table 10-3 in order and starts the session when all
pass. -/
def Obligations.CommitChecksThenStarts : Prop :=
  ∀ s : State, s.host.stage = .opened → s.mode = .setup →
    (s.setup.silenceTimeout < 2 * s.setup.beaconInterval →
      exec .commit s = .next (s.answer .invalid [8])) ∧
    (2 * s.setup.beaconInterval ≤ s.setup.silenceTimeout → s.setup.expelTimeout ≤ s.setup.silenceTimeout →
      exec .commit s = .next (s.answer .invalid [9])) ∧
    (2 * s.setup.beaconInterval ≤ s.setup.silenceTimeout → s.setup.silenceTimeout < s.setup.expelTimeout →
      s.setup.agreementPeriod < s.setup.beaconInterval →
      exec .commit s = .next (s.answer .invalid [10])) ∧
    (2 * s.setup.beaconInterval ≤ s.setup.silenceTimeout → s.setup.silenceTimeout < s.setup.expelTimeout →
      s.setup.beaconInterval ≤ s.setup.agreementPeriod →
      (∀ r : Fin 48, (s.setup.rules[r.val].kind = .range ∧ s.setup.rules[r.val].b < s.setup.rules[r.val].a) →
        (∀ q : Fin 48, q < r →
          ¬(s.setup.rules[q.val].kind = .range ∧ s.setup.rules[q.val].b < s.setup.rules[q.val].a)) →
        exec .commit s = .next (s.answer .invalid [BitVec.ofNat 8 (64 + r.val)])) ∧
      ((∀ r : Fin 48, ¬(s.setup.rules[r.val].kind = .range ∧ s.setup.rules[r.val].b < s.setup.rules[r.val].a)) →
        exec .commit s =
          .next (({ s with
            line := { s.line with mode := .listening, idle := 0, stopLeft := 0, rotations := 0, opportunityFloor := 0 }
            clock := { s.clock with nextPoint := some (s.l + millis s.setup.agreementPeriod) }
            outbound :=
              { s.outbound with
                beaconTimer := some (s.l + millis s.setup.beaconInterval), beaconDue := false }
            journal :=
              { s.journal with
                streamA :=
                  { s.journal.streamA with idleTimer := some (s.l + millis s.setup.streamA.idleTimeout) }
                streamB :=
                  { s.journal.streamB with
                    idleTimer := some (s.l + millis s.setup.streamB.idleTimeout) } } }).answer .ok [])))

/-- R76, R77: SUBMIT's refusals in order, and the record it creates, which goes to OUTQ and the acceptance unit. -/
def Obligations.SubmitCreatesRecord : Prop :=
  ∀ (s : State) (ch code flags : Byte) (v : BitVec 16), s.host.stage = .opened →
    (s.mode ≠ .active → exec (.submit ch code flags v) s = .next (s.answer .notNow [])) ∧
    (s.mode = .active → ch.toNat < 16 ∨ 31 < ch.toNat →
      exec (.submit ch code flags v) s = .next (s.answer .outOfRange [])) ∧
    (s.mode = .active → 16 ≤ ch.toNat → ch.toNat ≤ 31 → 32 ≤ s.outbound.outq.length →
      exec (.submit ch code flags v) s = .next (s.answer .full [])) ∧
    ∀ channel : Channel, channel.val = ch.toNat → s.mode = .active → 16 ≤ ch.toNat → s.outbound.outq.length < 32 →
      ∃ (r : Record) (u t : State),
        r = ⟨s.own, s.setup.incarnation, s.outbound.nextSeq,
          ⟨channel, code, s.st, decide (s.clock.state ≠ .agreed), if flags.getLsbD 0 then some v else none,
            if s.capture.lossCount = 0 then none else some s.capture.lossCount⟩⟩ ∧
        u = { s with
          capture := { s.capture with lossCount := 0 }
          outbound :=
            { s.outbound with nextSeq := s.outbound.nextSeq + 1, outq := s.outbound.outq ++ [r] } } ∧
        t = u.accept r ∧ OnlyJournalPath u t ∧
        exec (.submit ch code flags v) s = .next (t.answer .ok (leBytes 2 s.outbound.nextSeq.toNat))

/-- R36. UNMUTE and the 128th good frame in either order leave the same transmitter. -/
def Obligations.UnmuteEndsMute : Prop :=
  ∀ s : State, s.host.stage = .opened →
    (s.line.transmitter = .mute →
      ∃ t : State, exec .unmute s = .next (t.answer .ok []) ∧
        t = { s with line := { s.line with transmitter := .ready, failures := 0 } } ∧
        (t.fault = true ↔ s.mode = .stopped)) ∧
    (s.line.transmitter ≠ .mute → exec .unmute s = .next (s.answer .ok [])) ∧
    (s.line.transmitter = .mute → s.line.goodRun = 127 →
      s.line.unmute.hearGood = s.line.hearGood ∧ s.line.hearGood.unmute = s.line.hearGood ∧
        s.line.hearGood.transmitter = .ready)

/-- R22, R75, R146: LEAVE in ACTIVE moves the mode to LEAVING, starts the leave timer and clears the pending states; nothing
changes in the pool, R or the streams, and ST is the local horizon from there on. -/
def Obligations.LeaveStartsLeaving : Prop :=
  ∀ s : State, s.host.stage = .opened →
    (s.mode ≠ .active → exec .leave s = .next (s.answer .notNow [])) ∧
    (s.mode = .active →
      ∃ t : State, exec .leave s = .next t ∧
        t = ({ s with
          line :=
            { s.line with
              mode := .leaving, leaveTimer := some (s.l + millis (2 * s.setup.silenceTimeout)) }
          capture := { s.capture with pendingEdges := Vector.replicate 16 none } }).answer .ok [] ∧
        t.journal = s.journal ∧ t.localHorizon = t.st)

/-- R169, Table 10-1: the one mode that answers SETUP-WRITE, SETUP-READ, COMMIT, SUBMIT and LEAVE; any other mode
answers NOT-NOW and changes nothing, whatever the parameters; every other command is never answered NOT-NOW. The
status byte of the transaction stays the one latched. -/
def Obligations.ModeTableDecidesNotNow : Prop :=
  ∀ (c : Instr) (s : State), isHostCommand c = true → WellFormed c → s.host.stage = .opened →
    (∀ m, onlyMode c = some m → s.mode ≠ m → exec c s = .next (s.answer .notNow [])) ∧
    ((onlyMode c = none ∨ onlyMode c = some s.mode) →
      ∃ t r, exec c s = .next t ∧ t.host.stage = .replied ∧ t.host.reply.head? = some r ∧ r ≠ 1 ∧
        t.host.status = s.host.status)

/-- R168, R17, R166, R167, Table 1-11: a byte that the table does not list is answered BAD-COMMAND and changes nothing but
the reply; a listed command never is, in any mode with any parameters. The bytes clocked in name the command as soon as
the last parameter is there, and not before; bytes after it are ignored. While they come, the status byte, a 0x00 for each
parameter, the reply and then 0x00 are clocked out, each byte most significant bit first on the data output. -/
def Obligations.BytesNameCommands : Prop :=
  (∀ (b : Byte) (s : State), s.host.stage = .opened →
    b ∉ [(0x01 : Byte), 0x02, 0x03, 0x04, 0x05, 0x06, 0x07, 0x08, 0x10, 0x11, 0x12, 0x20, 0x21, 0x22, 0x23] →
    exec (.badCommand b) s = .next { s with host := ⟨.replied, s.host.status, [5]⟩ }) ∧
  (∀ (c : Instr) (s : State), isHostCommand c = true → (∀ b, c ≠ .badCommand b) → s.host.stage = .opened →
    ∃ t r, exec c s = .next t ∧ t.host.reply.head? = some r ∧ r ≠ 5) ∧
  (∀ (c : Instr) (more : List Byte), isHostCommand c = true → WellFormed c →
    hostCommand (c.hostBytes ++ more) = some c ∧ ∀ n, n < c.hostBytes.length → hostCommand (c.hostBytes.take n) = none) ∧
  (∀ (a b d : Byte) (v : BitVec 32) (w : BitVec 16),
    (Instr.readStream a b).hostBytes = [0x01, a, b] ∧ (Instr.readLatch a).hostBytes = [0x02, a] ∧
    Instr.readUrgent.hostBytes = [0x03] ∧ (Instr.readRoster a).hostBytes = [0x04, a] ∧
    Instr.readChanges.hostBytes = [0x05] ∧ Instr.readClock.hostBytes = [0x06] ∧
    (Instr.readCounters a).hostBytes = [0x07, a] ∧ Instr.clearCounters.hostBytes = [0x08] ∧
    (Instr.setupWrite a b v).hostBytes = 0x10 :: a :: b :: leBytes 4 v.toNat ∧
    (Instr.setupRead a b).hostBytes = [0x11, a, b] ∧ Instr.commit.hostBytes = [0x12] ∧
    (Instr.submit a b d w).hostBytes = 0x20 :: a :: b :: d :: leBytes 2 w.toNat ∧
    Instr.unmute.hostBytes = [0x21] ∧ Instr.leave.hostBytes = [0x22] ∧ Instr.restart.hostBytes = [0x23] ∧
    (Instr.badCommand a).hostBytes = [a]) ∧
  (∀ (s : State) (bytes : List Byte), s.host.stage = .idle → s.inReset = false → hostCommand bytes = none →
    ∀ falls, s.serialOutput bytes falls = some (decide (falls < 8) && s.statusByte.getLsbD (7 - falls))) ∧
  ∀ (c : Instr) (s : State) (more : List Byte), isHostCommand c = true → WellFormed c → s.host.stage = .idle →
    s.inReset = false →
    (∀ falls, s.serialOutput (c.hostBytes ++ more) falls =
      some ((s.clockedOut (c.hostBytes ++ more) (falls / 8)).getLsbD (7 - falls % 8))) ∧
    ∃ t, exec c { s with host := ⟨.opened, s.statusByte, []⟩ } = .next t ∧
      s.clockIn (c.hostBytes ++ more) = t ∧
      s.transact (c.hostBytes ++ more) = { t with host := ⟨.idle, t.host.status, []⟩ } ∧
      ∀ k, s.clockedOut (c.hostBytes ++ more) k =
        if k = 0 then s.statusByte
        else if k < c.hostBytes.length then 0
        else t.host.reply.getD (k - c.hostBytes.length) 0

/-! ### The line -/

/-- R1, R26, R28, R2: the receiver of a station on the line, between own frames. A byte of ten bit times, each bit read in
its middle, is completed by its stop bit, with a framing error if that reads active, and restarts the idle time; it
belongs to the open frame, if one is open. A fall whose line is idle again half a bit later is a glitch: no byte begins,
and the idle time grows on. A fall confirmed half a bit later begins a byte with ST and L of the fall; until then the idle
time has grown on, and from there it stands as it stood at the fall. At rest the idle time grows; while the line is active
outside a byte it stays at 0; past a framing error nothing is read, the rest of the stop bit passes, and then the time
for which the line is back at the idle level is counted, from 0 again when it is active. That the stop bit ends first is
log 32. The level is given once for each microsecond of L, and the middle of a bit is the microsecond that holds it (logs
4 and 5). -/
def Obligations.ReceiverReadsBytes : Prop :=
  ∀ (n : Line) (bt : Nat) (l : Time) (levels : List (Time × Bool)) (heard : Receiver), 1 ≤ bt → bt ≤ 100 →
    n.mode = .listening ∨ n.mode = .active ∨ n.mode = .leaving → n.flight = none →
    (n.receiver.phase = .searching → n.stopLeft = 0 →
      (∀ (value : Byte) (stop : Bool), levels.length = 10 * bt → (levels[0]?).map (·.2) = some false →
        (levels[bt / 2]?).map (·.2) = some false →
        (∀ i, i < 8 → (levels[(i + 1) * bt + bt / 2]?).map (·.2) = some (value.getLsbD i)) →
        (levels[9 * bt + bt / 2]?).map (·.2) = some stop →
        (∀ k, 9 * bt + bt / 2 < k → k < 10 * bt → stop = true → (levels[k]?).map (·.2) = some true) →
        heard =
          { n.receiver with
            phase := if stop then .searching else .held 0
            bytes := if n.lineState = .idle then n.receiver.bytes else n.receiver.bytes ++ [value]
            framingError := n.receiver.framingError || (!stop && decide (n.lineState ≠ .idle)) } →
        n.passRun bt l true levels =
          { n with idle := 0, stopLeft := 0, rotations := 0, opportunityFloor := 0, receiver := heard }) ∧
      (levels.length = bt / 2 + 1 → (levels[0]?).map (·.2) = some false →
        ((levels[bt / 2]?).map (·.2) = some true →
          n.passRun bt l true levels = { n with idle := n.idle + (bt / 2 + 1) }) ∧
        (∀ st, (levels[0]?).map (·.1) = some st → (levels[bt / 2]?).map (·.2) = some false →
          n.passRun bt l true levels =
            { n with receiver := { n.receiver with phase := .reading ⟨st, l, n.idle⟩ 0 0 } })) ∧
      (∀ st before,
        n.passMicrosecond bt st l before true = { n with idle := n.idle + 1 } ∧
        n.passMicrosecond bt st l false false =
          { n with idle := 0, stopLeft := 0, rotations := 0, opportunityFloor := 0 })) ∧
    ∀ rested, n.receiver.phase = .held rested → ∀ st before level,
      n.passMicrosecond bt st l before level =
        if 0 < n.stopLeft then { n with stopLeft := n.stopLeft - 1 }
        else { n with receiver := { n.receiver with phase := .held (if level then rested + 1 else 0) } }

/-- R2, R14, R26, R1, R33: a confirmed start bit that began after 12 bt of idle opens a frame with the stamps of its fall,
and another opens none; the line's release after a framing error restarts the idle run and the idle time at the instant the
line came back to the idle level (log 32: at the stop bit's end if that is later, which `stopLeft` keeps), and the receiver
looks for a start bit again; the frame end after a completed own frame is not classified, lowers the count of BACKOFF
(none is held then on any run), and surplus bytes advance frames-bad by one. A frame end waits for a fall that is not
confirmed yet (`settledIdle`, log 5), and a command that names another frame ends none (log 2). The receive stamps of 0 after
the frame end are the model's choice (log 19). -/
def Obligations.ReceiverEvents : Prop :=
  ∀ s : State, s.mode = .listening ∨ s.mode = .active ∨ s.mode = .leaving →
    (∀ f bits value, s.line.receiver.phase = .reading f bits value → s.line.lineState = .idle →
      12 * s.setup.bitTime ≤ f.idle →
      exec .frameStart s =
        .next { s with
          line :=
            { s.line with
              lineState := .receiving, idle := 0, stopLeft := 0, rotations := 0, opportunityFloor := 0
              receiver := ⟨.reading { f with idle := 0 } bits value, [], false, f.stamp, f.stampL⟩ } }) ∧
    (s.line.lineState ≠ .idle ∨
        (∀ f bits value, s.line.receiver.phase = .reading f bits value → f.idle < 12 * s.setup.bitTime) →
      exec .frameStart s = .next s) ∧
    (∀ rested, s.line.receiver.phase = .held rested → s.receiveData = true →
      exec .lineReleaseAfterFramingError s =
        .next { s with
          line :=
            { s.line with
              idle := rested, rotations := 0, opportunityFloor := 0
              receiver := { s.line.receiver with phase := .searching } } }) ∧
    ((∀ rested, s.line.receiver.phase ≠ .held rested) ∨ s.receiveData = false →
      exec .lineReleaseAfterFramingError s = .next s) ∧
    ((∀ f, s.line.receiver.phase = .falling f → s.line.settledIdle = f.idle) ∧
      ((∀ f, s.line.receiver.phase ≠ .falling f) → s.line.settledIdle = s.line.idle)) ∧
    (∀ bytes framingError,
      s.line.lineState = .idle ∨ s.line.flight ≠ none ∨ s.line.settledIdle < 12 * s.setup.bitTime ∨
        bytes ≠ s.line.receiver.bytes ∨ framingError ≠ s.line.receiver.framingError →
      exec (.frameEnd bytes framingError) s = .next s) ∧
    (s.line.lineState = .transmitting → s.line.flight = none → 12 * s.setup.bitTime ≤ s.line.settledIdle →
      ∃ u : Line, FrameEndCounts s.line u ∧
        exec (.frameEnd s.line.receiver.bytes s.line.receiver.framingError) s =
          .next { s with
            line :=
              { u with
                lineState := .idle, reference := some s.own
                receiver := ⟨s.line.receiver.phase, [], false, 0, 0⟩ }
            counters :=
              if s.line.receiver.bytes = [] then s.counters else s.counters.advance .framesBad })

/-- R13, R14, R21, R33: the frame end of an unread or malformed frame from elsewhere. A malformed frame's entry to ACTIVE,
and R after it, are those of log 8 and log 7; the receive stamps of a receiver without a frame are log 19's. -/
def Obligations.BadFrameEnds : Prop :=
  ∀ s : State, s.mode = .listening ∨ s.mode = .active ∨ s.mode = .leaving → s.line.lineState = .receiving →
    s.line.flight = none → 12 * s.setup.bitTime ≤ s.line.settledIdle →
    ∃ u : Line, FrameEndCounts s.line u ∧
    (classify s.line.receiver.bytes s.line.receiver.framingError = .crcFailed ∨
        classify s.line.receiver.bytes s.line.receiver.framingError = .cutShort →
      exec (.frameEnd s.line.receiver.bytes s.line.receiver.framingError) s =
        .next { s with
          line :=
            { u with
              lineState := .idle, reference := none, goodRun := 0
              receiver := ⟨s.line.receiver.phase, [], false, 0, 0⟩ }
          counters := s.counters.advance .framesBad }) ∧
    (∀ sender, classify s.line.receiver.bytes s.line.receiver.framingError = .malformed sender →
      exec (.frameEnd s.line.receiver.bytes s.line.receiver.framingError) s =
        .next ({ s with
          line :=
            { u with
              lineState := .idle, reference := some sender, goodRun := 0, observed := true
              receiver := ⟨s.line.receiver.phase, [], false, 0, 0⟩ }
          counters := s.counters.advance .framesBad } : State).tryActive.settle)

/-- R24, R13: a GOOD frame that names the own station stops it, and reaches no other block; frame counting comes before the
stop (log 14), and there is no entry to ACTIVE before it, also where the frame completes the pair of R21 (log 8). The receive
stamps of 0 after the frame end are the model's choice (log 19). -/
def Obligations.DuplicateNumberStops : Prop :=
  ∀ (s : State) (f : Frame), s.mode = .listening ∨ s.mode = .active ∨ s.mode = .leaving →
    s.line.lineState = .receiving → s.line.flight = none → 12 * s.setup.bitTime ≤ s.line.settledIdle →
    classify s.line.receiver.bytes s.line.receiver.framingError = .good f → f.sender = s.own →
    ∃ (u : Line) (t : State), FrameEndCounts s.line u ∧
      exec (.frameEnd s.line.receiver.bytes s.line.receiver.framingError) s = .next t ∧
      t = { s with
        line :=
          { (if s.line.transmitter = .mute ∧ 127 ≤ s.line.goodRun then
              { u with transmitter := .ready, failures := 0 } else u) with
            mode := .stopped, lineState := .idle, reference := some s.own, observed := true
            goodRun := min 128 (s.line.goodRun + 1), leaveTimer := none, receiver := ⟨.searching, [], false, 0, 0⟩ }
        clock := { s.clock with nextPoint := none }
        roster := s.roster.set s.own.val { s.entry s.own with state := .absent }
        capture := { s.capture with pendingEdges := Vector.replicate 16 none }
        outbound := { s.outbound with beaconTimer := none, beaconDue := false }
        counters := s.counters.advance .framesGood } ∧
      t.mode = .stopped ∧ t.fault = true

/-- R13, R21, R33, R35: a GOOD frame from another station: line access first, then the roster, the sequencer and the
outbound side (`RosterTakesFrame`, `SequencerTakesFrame`, `RequestsBecomeJobs`); then the entry to ACTIVE (`EntryToActive`,
log 8), and R follows the horizon (log 7). The receive stamps of 0 after the frame end are the model's choice (log 19). -/
def Obligations.GoodFrameHandedOn : Prop :=
  ∀ (s : State) (f : Frame), s.mode = .listening ∨ s.mode = .active ∨ s.mode = .leaving →
    s.line.lineState = .receiving → s.line.flight = none → 12 * s.setup.bitTime ≤ s.line.settledIdle →
    classify s.line.receiver.bytes s.line.receiver.framingError = .good f → f.sender ≠ s.own →
    ∃ (u : Line) (v : State), FrameEndCounts s.line u ∧
      v = { s with
        line :=
          { (if s.line.transmitter = .mute ∧ 127 ≤ s.line.goodRun then
              { u with transmitter := .ready, failures := 0 } else u) with
            lineState := .idle, reference := some f.sender, observed := true
            goodRun := min 128 (s.line.goodRun + 1)
            receiver := ⟨s.line.receiver.phase, [], false, 0, 0⟩ }
        counters := s.counters.advance .framesGood } ∧
      exec (.frameEnd s.line.receiver.bytes s.line.receiver.framingError) s =
        .next ((((v.rosterTake f s.line.receiver.stamp s.line.receiver.stampL).sequencerTake f).outboundTake
          f).tryActive).settle

/-- R21, R64, R130: the entry to ACTIVE takes both conditions; then the mode is ACTIVE, R becomes ST and the own entry LIVE
with the incarnation of the setup values and ST as its last-heard. No command reaches ACTIVE from another mode in another
way. -/
def Obligations.EntryToActive : Prop :=
  ∀ s : State,
    (s.mode = .listening → s.clock.firstPoint = true → s.line.observed = true →
      s.tryActive =
        { s with
          line := { s.line with mode := .active }
          journal := { s.journal with through := s.st }
          roster :=
            s.roster.set s.own.val
              { s.entry s.own with
                state := .live, incarnation := s.setup.incarnation, lastHeard := s.st } }) ∧
    (s.mode ≠ .listening ∨ s.clock.firstPoint = false ∨ s.line.observed = false → s.tryActive = s) ∧
    ∀ (c : Instr) (t : State), s.mode ≠ .active → exec c s = .next t → t.mode = .active →
      s.mode = .listening ∧ t.clock.firstPoint = true ∧ t.line.observed = true ∧ t.setup = s.setup ∧
      (t.entry s.own).state = .live ∧ (t.entry s.own).incarnation = s.setup.incarnation ∧
      (t.entry s.own).lastHeard = t.st

/-- R33: what a frame end and an empty rotation do to BACKOFF. The rotation is counted at an idle time that no fall still
to be confirmed takes back (log 5). The entry to ACTIVE and R after an empty rotation are those of log 8 and log 7; the
receive stamps of 0 after a frame end are the model's choice (log 19). -/
def Obligations.BackoffCounts : Prop :=
  (∀ (n : Line) (ref : Option Station), ∃ u : Line, FrameEndCounts n u ∧
    n.endFrame ref =
      { u with lineState := .idle, reference := ref, receiver := ⟨n.receiver.phase, [], false, 0, 0⟩ }) ∧
  ∀ s : State, s.mode = .listening ∨ s.mode = .active ∨ s.mode = .leaving →
    ∃ mark : Nat, mark = (16 + 32 * s.setup.slotWidth * (s.line.rotations + 1)) * s.setup.bitTime ∧
    (s.line.settledIdle < mark → exec .emptyRotation s = .next s) ∧
    (mark ≤ s.line.settledIdle →
      ∃ n : Line, exec .emptyRotation s = .next ({ s with line := n } : State).tryActive.settle ∧
        { n with
          transmitter := s.line.transmitter, backoff := s.line.backoff,
          opportunityFloor := s.line.opportunityFloor } =
          { s.line with observed := true, rotations := s.line.rotations + 1 } ∧
        (s.line.transmitter = .backoff → 2 ≤ s.line.backoff →
          n.transmitter = .backoff ∧ n.backoff = s.line.backoff - 1 ∧
            n.opportunityFloor = s.line.opportunityFloor) ∧
        (s.line.transmitter = .backoff → s.line.backoff ≤ 1 →
          n.transmitter = .ready ∧ n.backoff = 0 ∧ n.opportunityFloor = max s.line.opportunityFloor (mark + 1)) ∧
        (s.line.transmitter ≠ .backoff →
          n.transmitter = s.line.transmitter ∧ n.backoff = s.line.backoff ∧
            n.opportunityFloor = s.line.opportunityFloor))

/-- R27, R28: the own rank, and the idle times at which an opportunity stands: none once a start bit is confirmed, and not
an instant already past (`opportunityFloor`). -/
def Obligations.RankAndOpportunities : Prop :=
  ∀ s : State,
    (s.line.reference = none → s.rank = s.own.val) ∧
    (∀ r, s.line.reference = some r → s.rank < 32 ∧ (s.rank + r.val + 1) % 32 = s.own.val) ∧
    (s.atOpportunity = true ↔
      (s.mode = .listening ∨ s.mode = .active ∨ s.mode = .leaving) ∧
        (s.line.receiver.phase = .searching ∨ ∃ f, s.line.receiver.phase = .falling f) ∧
        s.line.opportunityFloor ≤ s.line.idle ∧
        ∃ k : Nat, s.line.idle = (16 + (s.rank + 32 * k) * s.setup.slotWidth) * s.setup.bitTime)

/-- R3, R14, R22, R28, R29: at an opportunity the station begins the first frame due in the arbiter's order, or lets
the opportunity pass. The receiver sets a fall not confirmed yet aside for that of SYNC. -/
def Obligations.OpportunityStartsFrameDue : Prop :=
  ∀ s : State,
    (s.atOpportunity = false → exec .opportunity s = .next s) ∧
    (s.atOpportunity = true →
      (∀ body covered, s.mode = .active ∨ s.mode = .leaving → s.line.lineState = .idle →
        s.line.transmitter = .ready → s.arbitrate = some (body, covered) →
        exec .opportunity s =
          .next { s with
            line :=
              { s.line with
                opportunityFloor := s.line.idle + 1
                lineState := .transmitting
                receiver := ⟨.falling ⟨s.st, s.l, s.line.idle⟩, [], false, s.st, s.l⟩
                flight :=
                  some ⟨⟨s.own, s.setup.incarnation, decide (s.clock.state = .agreed), s.st, body⟩, s.l,
                    covered, none⟩ } }) ∧
      (¬((s.mode = .active ∨ s.mode = .leaving) ∧ s.line.lineState = .idle ∧ s.line.transmitter = .ready) ∨
          s.arbitrate = none →
        exec .opportunity s =
          .next { s with line := { s.line with opportunityFloor := s.line.idle + 1 } }))

/-- R22, R29, R80, R85, R86, R88, R103: the arbiter's order of sources, REQUEST, REPEAT, EVENT, BEACON, and what each
of the frames carries. That the gap table stands in station order is part of the invariant `StoresStayRight`. -/
def Obligations.ArbiterOrderAndContents : Prop :=
  ∀ s : State,
    (∀ g, s.mode = .active → g ∈ s.sequencer.gaps → g.due = true →
      s.arbitrate = s.requestBody ∧ ∃ body covered, s.requestBody = some (body, covered)) ∧
    (s.mode = .leaving ∨ (∀ g ∈ s.sequencer.gaps, g.due = false) →
      (∀ j rest, s.outbound.jobs = j :: rest → s.arbitrate = some (s.repeatBody j, [])) ∧
      (∀ r rest, s.outbound.jobs = [] → s.outbound.outq = r :: rest →
        s.arbitrate = some (s.eventBody r, [])) ∧
      (s.outbound.jobs = [] → s.outbound.outq = [] →
        (s.mode = .leaving → s.arbitrate = some (.beacon (s.watermark 0) s.outbound.nextSeq true, [])) ∧
        (s.mode = .active → s.outbound.beaconDue = true →
          s.arbitrate = some (.beacon (s.watermark 0) s.outbound.nextSeq false, [])) ∧
        (s.mode = .active → s.outbound.beaconDue = false → s.arbitrate = none))) ∧
    (∀ r rest, s.outbound.outq = r :: rest →
      s.eventBody r =
        .event (s.watermark (min 8 s.outbound.outq.length)) r.seq ((s.outbound.outq.take 8).map (·.data))) ∧
    (∀ (j : SeqRange) (oldest : Record) rest, s.outbound.history = oldest :: rest →
      (seqBelow j.first oldest.seq = true →
        s.repeatBody j =
          .repeatGone j.first (BitVec.ofNat 8 (min (oldest.seq - j.first).toNat j.count.toNat))) ∧
      (seqBelow j.first oldest.seq = false →
        s.repeatBody j =
          .repeatRecords j.first
            (((s.outbound.history.drop (j.first - oldest.seq).toNat).take (min 8 j.count.toNat)).map
              (·.data)))) ∧
    (∀ body covered, s.requestBody = some (body, covered) →
      ∃ g ∈ s.sequencer.gaps, g.due = true ∧
        (∀ base : Time, (∀ x ∈ s.sequencer.gaps, x.due = true → (x.deadline - base).toNat < 2 ^ 47) →
          ∀ x ∈ s.sequencer.gaps, x.due = true →
            (g.deadline - base).toNat ≤ (x.deadline - base).toNat ∧
              (s.StoresRight → x.deadline = g.deadline → g.station ≤ x.station)) ∧
        body = .request g.station g.incarnation
          (((s.sequencer.gaps.filter fun x => x.due && x.station == g.station).take 4).map fun x =>
            ⟨x.first, BitVec.ofNat 8 (min x.count 255)⟩) ∧
        covered =
          ((s.sequencer.gaps.filter fun x => x.due && x.station == g.station).take 4).map fun x =>
            (x.station, x.first))

/-- R31, R64, R81, R83, R85, R89, R104: what the completion of an own frame, but for the LEAVING BEACON, does. A
completion before the last stop bit, or after a mismatch, has not occurred, and one commanded later is the same event
taken late (logs 25 and 3): the deadlines and the beacon timer then count from L as it stands. -/
def Obligations.CompletionTellsTheSource : Prop :=
  ∀ (s : State) (f : Flight), s.line.flight = some f →
    (f.mismatch ≠ none ∨ (s.l - f.startL).toNat < 10 * f.frame.toBytes.length * s.setup.bitTime →
      exec .completion s = .next s) ∧
    (f.mismatch = none → 10 * f.frame.toBytes.length * s.setup.bitTime ≤ (s.l - f.startL).toNat →
    (∀ wm next, f.frame.body ≠ .beacon wm next true) →
    ∃ (t : State) (o : Outbound), exec .completion s = .next t ∧
      t.line = { s.line with
        failures := 0
        flight := none
        receiver :=
          { s.line.receiver with bytes := s.line.receiver.bytes.drop f.frame.toBytes.length } } ∧
      o = { s.outbound with
        beaconTimer := some (s.l + millis s.setup.beaconInterval), beaconDue := false } ∧
      t.roster = s.roster.set s.own.val { s.entry s.own with lastHeard := f.frame.sendStamp } ∧
      { t with
        line := s.line, outbound := s.outbound, roster := s.roster, sequencer := s.sequencer,
        counters := s.counters } = s ∧
      (∀ wm first recs, f.frame.body = .event wm first recs →
        t.outbound =
          { o with
            outq := s.outbound.outq.drop recs.length
            history :=
              (s.outbound.history ++ s.outbound.outq.take recs.length).drop
                (s.outbound.history.length + min recs.length s.outbound.outq.length - 128)
            sentCount := min 32768 (s.outbound.sentCount + min recs.length s.outbound.outq.length)
            lastWatermark := wm } ∧
        t.counters = s.counters) ∧
      (∀ wm next, f.frame.body = .beacon wm next false →
        t.outbound = { o with lastWatermark := wm } ∧ t.counters = s.counters) ∧
      (∀ target inc ranges, f.frame.body = .request target inc ranges →
        t.outbound = o ∧ t.counters = s.counters.advance .requestsSent) ∧
      (∀ n, (∃ first recs, f.frame.body = .repeatRecords first recs ∧ n = recs.length) ∨
          (∃ first count, f.frame.body = .repeatGone first count ∧ n = count.toNat) →
        t.counters = s.counters.advance .repeatsSent ∧ (s.outbound.jobs = [] → t.outbound = o) ∧
        ∀ j rest, s.outbound.jobs = j :: rest →
          t.outbound =
            { o with
              jobs :=
                if j.count.toNat ≤ n then rest
                else ⟨j.first + BitVec.ofNat 16 n, j.count - BitVec.ofNat 8 n⟩ :: rest }) ∧
      t.sequencer.table = s.sequencer.table ∧
      t.sequencer.gaps = s.sequencer.gaps.map fun g =>
        if (g.station, g.first) ∈ f.covered then
          { g with
            tries := g.tries + 1, state := .requested,
            deadline := s.l + millis s.setup.requestTimeout, due := false }
        else g)

/-- R14, R30, R32, R34: a driven bit that reads back different is the mismatch of the attempt, the first one alone. A failed
attempt leaves every source alone; the transmitter backs off or goes MUTE; the receiver goes on with the byte under way
and the bytes read, but for a mismatch in the start bit of SYNC, which opens no frame; that the receiver it empties holds
stamps of 0 and no mark is the model's choice (log 19). Without a mismatch in the bit named no attempt has failed (logs 2
and 3). -/
def Obligations.FailedAttemptBacksOff : Prop :=
  (∀ (s : State) (bit : Nat), (∀ f, s.line.flight = some f → f.mismatch ≠ some bit) →
    exec (.failedAttempt bit) s = .next s) ∧
  (∀ (s : State) (f : Flight) (bit : Nat), s.line.flight = some f → f.mismatch = some bit →
    ∃ n : Line,
      (s.line.failures < 15 →
        n = { s.line with
          transmitter := .backoff, failures := s.line.failures + 1, backoff := min (s.line.failures + 1) 8 }) ∧
      (15 ≤ s.line.failures →
        n = { s.line with transmitter := .mute, failures := 16, backoff := 0, goodRun := 0 }) ∧
      (bit = 0 →
        exec (.failedAttempt bit) s =
          .next { s with
            line :=
              { n with
                lineState := .idle, flight := none, skipFrameEnd := false
                receiver := ⟨s.line.receiver.phase, [], false, 0, 0⟩ }
            counters := s.counters.advance .attemptsFailed }) ∧
      (0 < bit →
        exec (.failedAttempt bit) s =
          .next { s with
            line := { n with lineState := .receiving, flight := none, skipFrameEnd := true }
            counters := s.counters.advance .attemptsFailed })) ∧
  ∀ (f : Flight) (bt : Nat) (l : Time) (level : Bool), 1 ≤ bt →
    (∀ bit b, f.mismatch = none → (l - f.startL).toNat = bit * bt + bt / 2 →
      f.frame.toBytes[bit / 10]? = some b →
      level ≠ (if bit % 10 = 0 then false else if bit % 10 = 9 then true else b.getLsbD (bit % 10 - 1)) →
      f.compare bt l level = { f with mismatch := some bit }) ∧
    (f.mismatch ≠ none ∨
        (∀ bit b, (l - f.startL).toNat = bit * bt + bt / 2 → f.frame.toBytes[bit / 10]? = some b →
          level = if bit % 10 = 0 then false else if bit % 10 = 9 then true else b.getLsbD (bit % 10 - 1)) →
      f.compare bt l level = f)

/-! ### The station clock -/

/-- R39, R40, R26, R72, R79, R185: one increment of L; ST advances unless a slewed increment is withheld; the line passes
one microsecond at the level given (`ReceiverReadsBytes`); L stands still while RST is held. The levels given for the
inputs are their first sample after a full reset; afterwards the model ignores them and shows a change as EDGE (log 15),
and the row's operands are the model's too (log 4). The ordered release of the instant that ends is taken at the latest
here, as ORDERED_RELEASE takes it (logs 7 and 29). R42: a fall of the line latches ST of the instant that ends, and where
an agreement point was taken at it, ST before its correction or after it (log 34). R14, R30: in every microsecond of an
own frame the driven bit is compared; where the part drives a byte and it reads back as driven in the middle of each bit,
the receiver keeps that byte, whatever it did before; a start bit that reads idle begins none, which R14 says of that of
SYNC and which is the model's choice for that of a later byte (log 22); and a byte under way is read as any other. -/
def Obligations.IncrementMovesTime : Prop :=
  (∀ (s : State) (inputs : BitVec 16) (level : Bool),
    (s.inReset = true → exec (.localCountIncrement inputs level) s = .next s) ∧
    (s.inReset = false →
      ∃ (v : State) (stamp : Time), exec .orderedRelease s = .next v ∧ OnlyJournal s v ∧
        (s.mode.working = false → v = s) ∧
        (s.clock.uncorrected = none → stamp = s.clock.st) ∧
        (∀ before, s.clock.uncorrected = some before → stamp = before ∨ stamp = s.clock.st) ∧
        exec (.localCountIncrement inputs level) s =
          .next { v with
            receiveData := level
            clock :=
              { s.clock with
                l := s.clock.l + 1
                st := if 0 < s.clock.debt ∧ (s.clock.l + 1).toNat % 2 = 1 then s.clock.st else s.clock.st + 1
                debt :=
                  if 0 < s.clock.debt ∧ (s.clock.l + 1).toNat % 2 = 1 then s.clock.debt - 1 else s.clock.debt
                uncorrected := none }
            line := s.line.passMicrosecond s.setup.bitTime stamp s.l s.receiveData level
            capture :=
              { s.capture with
                levels := if s.capture.sampled then s.capture.levels else inputs, sampled := true } } ∧
        (s.mode = .setup ∨ s.mode = .stopped →
          s.line.passMicrosecond s.setup.bitTime stamp s.l s.receiveData level = s.line))) ∧
  ∀ (n : Line) (bt : Nat) (l : Time) (before : Bool), 1 ≤ bt → bt ≤ 100 →
    n.mode = .listening ∨ n.mode = .active ∨ n.mode = .leaving →
    (∀ st level,
      (n.passMicrosecond bt st l before level).flight = n.flight.map fun f => f.compare bt l level) ∧
    ∀ f, n.flight = some f →
      (∀ (k : Nat) (b : Byte), f.mismatch = none → f.frame.toBytes.length ≤ 110 → f.frame.toBytes[k]? = some b →
        (l - f.startL).toNat = 10 * bt * k →
        (∀ levels : List (Time × Bool), n.lineState = .transmitting → levels.length = 10 * bt →
          (levels[bt / 2]?).map (·.2) = some false →
          (∀ i, i < 8 → (levels[(i + 1) * bt + bt / 2]?).map (·.2) = some (b.getLsbD i)) →
          (∀ i, 9 * bt + bt / 2 ≤ i → i < 10 * bt → (levels[i]?).map (·.2) = some true) →
          n.passRun bt l before levels =
            { n with
              idle := 0, stopLeft := 0, rotations := 0, opportunityFloor := 0
              receiver := { n.receiver with phase := .searching, bytes := n.receiver.bytes ++ [b] } }) ∧
        ∀ (levels : List (Time × Bool)) (st : Time), levels.length = bt / 2 + 1 →
          (levels[0]?).map (·.1) = some st →
          ((levels[bt / 2]?).map (·.2) = some true →
            (n.passRun bt l before levels).receiver = { n.receiver with phase := .searching }) ∧
          ((levels[bt / 2]?).map (·.2) = some false →
            (n.passRun bt l before levels).receiver = { n.receiver with phase := .reading ⟨st, l, 0⟩ 0 0 } ∧
              (n.passRun bt l before levels).idle = 0)) ∧
      ∀ fall bits value, n.receiver.phase = .reading fall bits value →
        f.mismatch ≠ none ∨ (l - f.startL).toNat % (10 * bt) ≠ 0 →
        ∀ st level,
          n.passMicrosecond bt st l before level =
            { ({ n with flight := none } : Line).passMicrosecond bt st l before level with
              flight := some (f.compare bt l level) }

/-- R40: while the station works, no command moves ST back: it stays, or goes on by at most the largest step. -/
def Obligations.StationTimeNeverDecreases : Prop :=
  ∀ (c : Instr) (s t : State), s.setup.stepLimit ≤ 5000 → s.mode = .active ∨ s.mode = .leaving →
    exec c s = .next t → t.mode = .active ∨ t.mode = .leaving →
    ∃ d : Nat, d ≤ 5000 ∧ t.clock.st = s.clock.st + BitVec.ofNat 48 d

/-- R44, R47, R48, R49, R50: what an agreement point does to ST, D, the last decision and the last m, by the mode, and that
its state and counts are those of the table (`ClockStateTable`); the mode may become ACTIVE there (log 8), and R follows
the horizon (log 7). That a point taken late decides from L as it stands and keeps the next point on its period is the
model's choice (log 3), and so is it that m is unbounded (log 26); `uncorrected` is the model's own (log 34). -/
def Obligations.AgreementPointCorrects : Prop :=
  ∀ (s : State) (p : Time), s.mode = .listening ∨ s.mode = .active ∨ s.mode = .leaving →
    s.clock.nextPoint = some p → (s.l - p).toNat < 2 ^ 47 →
    ∃ u : State, exec .agreementPoint s = .next u.tryActive.settle ∧
      u = { s with
        clock := u.clock
        clockChanged := s.clockChanged || decide (u.clock.state ≠ s.clock.state) } ∧
      u.clock.l = s.clock.l ∧ u.clock.firstPoint = true ∧ u.clock.uncorrected = some s.clock.st ∧
      (∃ k : Clock, k = s.clock.advanceState s.pointKind s.pointMidpoint s.setup.precisionBound ∧
        u.clock.state = k.state ∧ u.clock.goodPoints = k.goodPoints ∧ u.clock.alonePoints = k.alonePoints) ∧
      u.clock.nextPoint = some (p + millis s.setup.agreementPeriod) ∧ u.clock.lastDecisionL = s.clock.l ∧
      (s.pointMidpoint = none →
        u.clock.st = s.clock.st ∧ u.clock.debt = s.clock.debt ∧ u.clock.lastDecision = 0 ∧
          u.clock.lastM = s.clock.lastM) ∧
      ∀ m, s.pointMidpoint = some m →
        u.clock.lastM = m ∧
        (s.mode = .listening →
          u.clock.st = s.clock.st + BitVec.ofInt 48 m ∧ u.clock.debt = s.clock.debt ∧
            u.clock.lastDecision = m) ∧
        (s.mode ≠ .listening →
          (0 < m → 0 < s.setup.stepLimit →
            u.clock.st = s.clock.st + BitVec.ofInt 48 (min m s.setup.stepLimit) ∧
              u.clock.debt = s.clock.debt ∧ u.clock.lastDecision = min m s.setup.stepLimit) ∧
          (m < 0 → 0 < s.setup.stepLimit → s.clock.debt ≤ 4 * s.setup.stepLimit →
            u.clock.st = s.clock.st ∧
              (u.clock.debt : Int) =
                min (s.clock.debt + min (-m) s.setup.stepLimit) (4 * s.setup.stepLimit) ∧
              u.clock.lastDecision = (s.clock.debt : Int) - u.clock.debt) ∧
          (m = 0 →
            u.clock.st = s.clock.st ∧ u.clock.debt = s.clock.debt ∧ u.clock.lastDecision = 0))

/-- R45, R46: the midpoint of a point is that of the working values of its kept samples: which samples are usable, one for
each station, which of them are kept, at which working values, and their midpoint: sorted, trimmed at both ends from four
values up, the half sum of the extremes rounded toward zero. -/
def Obligations.MidpointOfUsableSamples : Prop :=
  (∀ s : State,
    s.pointMidpoint = midpoint ((keptSamples s.usableSamples).map s.clock.workingValue) ∧
    s.usableSamples = (List.finRange 32).filterMap s.usableSample ∧
    (∀ (i : Station) (m : Sample),
      s.usableSample i = some m ↔
        i ≠ s.own ∧ (s.entry i).state = .live ∧ (s.entry i).sample = some m ∧
          (s.l - m.time).toNat < 2 * (1000 * s.setup.agreementPeriod)) ∧
    (∀ ms : List Sample,
      ((∃ m ∈ ms, m.agreed = true) → keptSamples ms = ms.filter fun m => m.agreed) ∧
      ((∀ m ∈ ms, m.agreed = false) → keptSamples ms = ms)) ∧
    (∀ m : Sample,
      (timeEarlier m.time s.clock.lastDecisionL = true →
        s.clock.workingValue m = m.offset - s.clock.lastDecision) ∧
      (timeEarlier m.time s.clock.lastDecisionL = false → s.clock.workingValue m = m.offset))) ∧
  midpoint [] = none ∧
  ∀ vs w : List Int, vs.Perm w → w.Pairwise (· ≤ ·) → w ≠ [] →
    (∀ lo hi,
      (w.length ≤ 3 → w[0]? = some lo → w[w.length - 1]? = some hi →
        midpoint vs = some (Int.tdiv (lo + hi) 2)) ∧
      (4 ≤ w.length → w[1]? = some lo → w[w.length - 2]? = some hi →
        midpoint vs = some (Int.tdiv (lo + hi) 2)))

/-- R49, R50, Table 3-1: the kinds of point, and the clock state and counts after each. -/
def Obligations.ClockStateTable : Prop :=
  (∀ s : State,
    (∀ m, s.pointMidpoint = some m →
      (m.natAbs ≤ s.setup.precisionBound → s.pointKind = .good) ∧
      (s.setup.precisionBound < m.natAbs → s.pointKind = .bad)) ∧
    (s.pointMidpoint = none →
      ((∃ i : Station, i ≠ s.own ∧ (s.entry i).state = .live) → s.pointKind = .neutral) ∧
      ((∀ i : Station, i ≠ s.own → (s.entry i).state ≠ .live) → s.pointKind = .alone))) ∧
  ∀ (c : Clock) (m : Int) (bound : Nat),
    (∀ m, c.advanceState .neutral m bound = c) ∧
    (∀ k, k = .good ∨ k = .bad →
      (c.state = .free →
        c.advanceState k (some m) bound = { c with state := .converging, goodPoints := 0, alonePoints := 0 }) ∧
      (c.state = .agreed → 4 * bound < m.natAbs →
        c.advanceState k (some m) bound = { c with state := .converging, goodPoints := 0, alonePoints := 0 }) ∧
      (c.state = .agreed → m.natAbs ≤ 4 * bound →
        c.advanceState k (some m) bound = { c with goodPoints := 0, alonePoints := 0 })) ∧
    (c.state = .converging →
      (2 ≤ c.goodPoints →
        c.advanceState .good (some m) bound = { c with state := .agreed, goodPoints := 0, alonePoints := 0 }) ∧
      (c.goodPoints < 2 →
        c.advanceState .good (some m) bound = { c with goodPoints := c.goodPoints + 1, alonePoints := 0 }) ∧
      c.advanceState .bad (some m) bound = { c with goodPoints := 0, alonePoints := 0 }) ∧
    (c.state = .free ∨ c.state = .converging →
      (2 ≤ c.alonePoints →
        c.advanceState .alone none bound = { c with state := .agreed, goodPoints := 0, alonePoints := 0 }) ∧
      (c.alonePoints < 2 →
        c.advanceState .alone none bound = { c with goodPoints := 0, alonePoints := c.alonePoints + 1 })) ∧
    (c.state = .agreed → c.advanceState .alone none bound = { c with goodPoints := 0, alonePoints := 0 })

/-! ### The roster -/

/-- R55 to R62, R43, R65, R92, R108, R109, Table 4-2: what the roster makes of a GOOD frame from another station. The
gaps it closes make RESTART and LEFT markers, as `HolesReachThePool` says of `tellRestart` and `tellGone`. -/
def Obligations.RosterTakesFrame : Prop :=
  ∀ (s : State) (f : Frame) (stamp stampL : Time) (i : Station) (smp : Option Sample), i = f.sender →
    smp = some ⟨(f.sendStamp - stamp).toInt + s.setup.delayCompensation, stampL, f.clockAgreed⟩ →
    ∃ t : State, t = s.rosterTake f stamp stampL ∧
    (∀ j, j ≠ i → t.entry j = s.entry j ∧ t.seqEntry j = s.seqEntry j) ∧
    (t.sequencer.gaps.filter fun g => g.station != i) = (s.sequencer.gaps.filter fun g => g.station != i) ∧
    ((s.entry i).state = .absent →
      (f.body.isLeaving = false →
        t = (s.setEntry i ⟨.joining, f.incarnation, stamp, s.l, smp, true⟩).setSeqEntry i
          (some ⟨f.incarnation, none, 0⟩)) ∧
      (f.body.isLeaving = true →
        t = s.setEntry i ⟨.absent, f.incarnation, stamp, s.l, smp, (s.entry i).mark⟩)) ∧
    ((s.entry i).state ≠ .absent → (s.entry i).incarnation = f.incarnation →
      (f.body.isLeaving = false →
        t = s.setEntry i
          ⟨.live, f.incarnation, stamp, s.l, smp, (s.entry i).mark || decide ((s.entry i).state ≠ .live)⟩) ∧
      (f.body.isLeaving = true →
        t = (s.setEntry i ⟨.absent, f.incarnation, stamp, s.l, smp, true⟩).tellGone i)) ∧
    ((s.entry i).state ≠ .absent → (s.entry i).incarnation ≠ f.incarnation →
      (f.body.isLeaving = false →
        t = (s.tellRestart i f.incarnation).setEntry i ⟨.joining, f.incarnation, stamp, s.l, smp, true⟩ ∧
        t.seqEntry i = some ⟨f.incarnation, none, 0⟩ ∧ ∀ g ∈ t.sequencer.gaps, g.station ≠ i) ∧
      (f.body.isLeaving = true →
        t = ((s.tellRestart i f.incarnation).setEntry i
          ⟨.absent, f.incarnation, stamp, s.l, smp, true⟩).tellGone i)) ∧
    ((s.entry i).state ≠ .absent → f.body.isLeaving = true →
      t.seqEntry i = none ∧ ∀ g ∈ t.sequencer.gaps, g.station ≠ i)

/-- R58, R60, R63, R109: the silence and expel expiries, at or after their instants (log 3). The gaps they close make LEFT
markers, as `HolesReachThePool` says of `tellGone`. -/
def Obligations.RosterTimerExpiries : Prop :=
  ∀ (s : State) (i : Station), s.mode = .listening ∨ s.mode = .active ∨ s.mode = .leaving → i ≠ s.own →
    ((s.l - ((s.entry i).heardAt + millis s.setup.silenceTimeout)).toNat < 2 ^ 47 →
      ((s.entry i).state = .live →
        exec (.silenceTimerExpiry i) s =
          .next (s.setEntry i { s.entry i with state := .silent, mark := true }).settle) ∧
      ((s.entry i).state = .joining →
        ∃ u : State, u = (s.setEntry i { s.entry i with state := .absent, mark := true }).tellGone i ∧
          exec (.silenceTimerExpiry i) s = .next u.settle ∧
          u.roster = s.roster.set i.val { s.entry i with state := .absent, mark := true } ∧
          u.seqEntry i = none ∧
          u.sequencer.gaps = s.sequencer.gaps.filter (fun g => g.station != i)) ∧
      ((s.entry i).state = .absent ∨ (s.entry i).state = .silent →
        exec (.silenceTimerExpiry i) s = .next s)) ∧
    ((s.entry i).state = .silent →
      (s.l - ((s.entry i).heardAt + millis s.setup.expelTimeout)).toNat < 2 ^ 47 →
      ∃ u : State, u = (s.setEntry i { s.entry i with state := .absent, mark := true }).tellGone i ∧
        exec (.expelTimerExpiry i) s = .next u.settle ∧
        u.roster = s.roster.set i.val { s.entry i with state := .absent, mark := true } ∧
        u.seqEntry i = none ∧
        u.sequencer.gaps = s.sequencer.gaps.filter (fun g => g.station != i))

/-! ### Capture and timers -/

/-- R72, R73, R74: an edge cancels a pending state, starts one, or only updates the level. A change before the first sample
is none (log 15), and a second change at the same L is taken as a further edge (log 35). R follows the horizon after a
change of pending states (log 7). -/
def Obligations.EdgeStartsOrCancels : Prop :=
  (∀ (sel : EdgeSelect) (level : Bool),
    sel.selects level = true ↔ sel = .both ∨ sel = .rise ∧ level = true ∨ sel = .fall ∧ level = false) ∧
  ∀ (s : State) (i : InputNo) (level : Bool),
    (s.capture.sampled = false ∨ s.capture.levels.getLsbD i.val = level →
      exec (.edge i level) s = .next s) ∧
    (s.capture.sampled = true → s.capture.levels.getLsbD i.val ≠ level →
      ∃ (lv : BitVec 16) (u : State),
        lv.getLsbD i.val = level ∧ (∀ j : InputNo, j ≠ i → lv.getLsbD j.val = s.capture.levels.getLsbD j.val) ∧
        u = { s with capture := { s.capture with levels := lv } } ∧
        (s.pendingEdge i ≠ none →
          exec (.edge i level) s = .next (u.setPendingEdge i none).settle) ∧
        (s.pendingEdge i = none → s.mode = .active → (s.setup.edges[i.val]).selects level = true →
          0 < s.setup.debounce →
          exec (.edge i level) s =
            .next (u.setPendingEdge i (some ⟨s.st, s.l, level, decide (s.clock.state = .agreed)⟩)).settle) ∧
        (s.pendingEdge i = none → s.mode = .active → (s.setup.edges[i.val]).selects level = true →
          s.setup.debounce = 0 →
          exec (.edge i level) s =
            .next (u.confirmCapture i ⟨s.st, s.l, level, decide (s.clock.state = .agreed)⟩).settle) ∧
        (s.pendingEdge i = none → s.mode ≠ .active ∨ (s.setup.edges[i.val]).selects level = false →
          exec (.edge i level) s = .next u))

/-- R74, R77, R78: the expiry of a debounce confirms the capture as a record, or loses it with OUTQ full. -/
def Obligations.DebounceConfirmsOrLoses : Prop :=
  ∀ (s : State) (i : InputNo) (p : PendingEdge), s.mode = .active → s.pendingEdge i = some p →
    (s.l - (p.edgeL + micros s.setup.debounce)).toNat < 2 ^ 47 →
    (32 ≤ s.outbound.outq.length →
      exec (.debounceExpiry i) s =
        .next (({ s.setPendingEdge i none with
          capture :=
            { (s.setPendingEdge i none).capture with lossCount := saturate8 s.capture.lossCount } } : State).count
          .captureLost).settle) ∧
    (s.outbound.outq.length < 32 →
      ∃ (r : Record) (ch : Channel) (u : State), ch.val = i.val ∧
        r = ⟨s.own, s.setup.incarnation, s.outbound.nextSeq,
          ⟨ch, if p.level then 1 else 2, p.edgeTime, !p.agreed, none,
            if s.capture.lossCount = 0 then none else some s.capture.lossCount⟩⟩ ∧
        u = { s.setPendingEdge i none with
          capture := { (s.setPendingEdge i none).capture with lossCount := 0 }
          outbound :=
            { s.outbound with nextSeq := s.outbound.nextSeq + 1, outq := s.outbound.outq ++ [r] } } ∧
        exec (.debounceExpiry i) s = .next (u.accept r).settle ∧ OnlyJournalPath u (u.accept r))

/-- R85, R102, R105, R156: the beacon timer, the idle timers and the gap deadlines, at or after their instants
(log 3). -/
def Obligations.TimersExpire : Prop :=
  ∀ s : State,
    (∀ e, s.outbound.beaconTimer = some e → s.mode = .listening ∨ s.mode = .active ∨ s.mode = .leaving →
      (s.l - e).toNat < 2 ^ 47 →
      exec .beaconTimerExpiry s =
        .next { s with outbound := { s.outbound with beaconTimer := none, beaconDue := true } }) ∧
    (∀ (id : StreamId) e, (s.stream id).idleTimer = some e → (s.l - e).toNat < 2 ^ 47 →
      exec (.idleTimerExpiry id) s =
        .next { s with
          journal := s.journal.setStream id
            { s.stream id with
              timeout := (s.stream id).timeout || decide ((s.stream id).entries ≠ [])
              idleTimer := none } }) ∧
    (∀ (g : Gap) above below, s.sequencer.gaps = above ++ g :: below →
      (∀ x ∈ above, ¬(x.station = g.station ∧ x.first = g.first)) →
      s.mode = .listening ∨ s.mode = .active ∨ s.mode = .leaving → g.due = false →
      (s.l - g.deadline).toNat < 2 ^ 47 →
      (g.tries < s.setup.maxTries →
        exec (.gapDeadline g.station g.first) s =
          .next (s.setGaps (above ++ { g with due := true } :: below)).settle) ∧
      (s.setup.maxTries ≤ g.tries →
        exec (.gapDeadline g.station g.first) s =
          .next ((s.setGaps (above ++ below)).makeHole
            ⟨g.station, g.incarnation, g.first, g.count, .noAnswer, g.bound⟩).settle))

/-! ### The outbound side's jobs -/

/-- R87, R88: a REQUEST to the own station and incarnation is taken range by range; each range is cut to the part in the
sent run, and what is left is discarded if it lies inside a queued range, appended while fewer than 8 are queued, and
otherwise dropped and counted. That a range inside a queued one is not counted with 8 queued is the model's choice
(log 31). -/
def Obligations.RequestsBecomeJobs : Prop :=
  ∀ s : State,
    (∀ f : Frame,
      (∀ inc ranges, f.body = .request s.own inc ranges → inc ≠ s.setup.incarnation) → s.outboundTake f = s) ∧
    (∀ (f : Frame) ranges, f.body = .request s.own s.setup.incarnation ranges →
      s.outboundTake f = ranges.foldl State.takeRange s) ∧
    (∀ q : Seq, s.outbound.inSentRun q = true ↔
      ∃ k : Nat, 1 ≤ k ∧ k ≤ s.outbound.sentCount ∧
        q = s.outbound.nextSeq - BitVec.ofNat 16 s.outbound.outq.length - BitVec.ofNat 16 k) ∧
    ∀ r : SeqRange,
      ((∀ k, k < r.count.toNat → s.outbound.inSentRun (r.first + BitVec.ofNat 16 k) = false) →
        s.takeRange r = s) ∧
      ∀ (c : SeqRange) (lo : Nat), 1 ≤ c.count.toNat → lo + c.count.toNat ≤ r.count.toNat →
        c.first = r.first + BitVec.ofNat 16 lo →
        (∀ k, k < r.count.toNat →
          (s.outbound.inSentRun (r.first + BitVec.ofNat 16 k) = true ↔ lo ≤ k ∧ k < lo + c.count.toNat)) →
        ((∃ q ∈ s.outbound.jobs, ∃ d : Nat, d + c.count.toNat ≤ q.count.toNat ∧
            c.first = q.first + BitVec.ofNat 16 d) →
          s.takeRange r = s) ∧
        ((∀ q ∈ s.outbound.jobs, ∀ d : Nat, d + c.count.toNat ≤ q.count.toNat →
            c.first ≠ q.first + BitVec.ofNat 16 d) →
          (s.outbound.jobs.length < 8 →
            s.takeRange r = { s with outbound := { s.outbound with jobs := s.outbound.jobs ++ [c] } }) ∧
          (8 ≤ s.outbound.jobs.length →
            s.takeRange r = { s with counters := s.counters.advance .jobsDropped }))

/-! ### The sequencer -/

/-- R92, R93, R94, R96, R99: what the sequencer makes of a frame, by its kind. The first EVENT or BEACON sets NE and HW; a
BEACON above NE opens a trailing gap, or a hole at once; HW rises to a later watermark; a REQUEST suppresses; a REPEAT
gives its records or its GONE range once NE is set. The holes of R98 come after those of the run revealed (log 13), and
a gap is due from its opening (log 12). -/
def Obligations.SequencerTakesFrame : Prop :=
  ∀ (s : State) (f : Frame),
    (s.seqEntry f.sender = none → s.sequencerTake f = s) ∧
    (∀ (wm : Time) (e : SeqEntry), s.seqEntry f.sender = some e →
      s.raiseWatermark f.sender wm =
        s.setSeqEntry f.sender
          (some { e with
            watermark :=
              if 1 ≤ (wm - e.watermark).toNat ∧ (wm - e.watermark).toNat < 2 ^ 47 then wm else e.watermark })) ∧
    (∀ first, s.takeRecords f.sender f.incarnation first [] = s ∧
      ∀ d ds, s.takeRecords f.sender f.incarnation first (d :: ds) =
        (s.takeRecord ⟨f.sender, f.incarnation, first, d⟩).takeRecords f.sender f.incarnation (first + 1) ds) ∧
    ∀ e : SeqEntry, s.seqEntry f.sender = some e →
      (∀ wm first recs, f.body = .event wm first recs →
        (e.next = none →
          s.sequencerTake f =
            ((s.setSeqEntry f.sender (some ⟨e.incarnation, some first, wm⟩)).takeRecords f.sender f.incarnation
              first recs).raiseWatermark f.sender wm ∧
          (s.sequencerTake f).seqEntry f.sender =
            some ⟨e.incarnation, some (first + BitVec.ofNat 16 recs.length), wm⟩) ∧
        (e.next ≠ none →
          s.sequencerTake f =
            (s.takeRecords f.sender f.incarnation first recs).raiseWatermark f.sender wm)) ∧
      (∀ wm next leaving, f.body = .beacon wm next leaving →
        (e.next = none →
          s.sequencerTake f = s.setSeqEntry f.sender (some ⟨e.incarnation, some next, wm⟩)) ∧
        ∀ (ne : Seq) (run : Nat), e.next = some ne → run = (next - ne).toNat →
          (run = 0 ∨ 2 ^ 15 ≤ run → s.sequencerTake f = s.raiseWatermark f.sender wm) ∧
          (1 ≤ run → run < 2 ^ 15 →
            (s.sequencerTake f).seqEntry f.sender =
              some ⟨e.incarnation, some next,
                if 1 ≤ (wm - e.watermark).toNat ∧ (wm - e.watermark).toNat < 2 ^ 47 then wm else e.watermark⟩ ∧
            (run ≤ 1024 → s.sequencer.gaps.length < 32 →
              s.sequencerTake f =
                ((s.setGaps
                  (insertGap ⟨f.sender, e.incarnation, ne, run, e.watermark, 0, s.l, .waiting, true⟩
                    s.sequencer.gaps)).advanceNext f.sender next).raiseWatermark f.sender wm) ∧
            (run ≤ 1024 → 32 ≤ s.sequencer.gaps.length →
              s.sequencerTake f =
                ((s.makeHole ⟨f.sender, e.incarnation, ne, run, .noRoom, e.watermark⟩).advanceNext f.sender
                  next).raiseWatermark f.sender wm) ∧
            (1024 < run →
              s.sequencerTake f =
                ((s.makeHole ⟨f.sender, e.incarnation, ne, 1024, .beyond, e.watermark⟩).advanceNext f.sender
                  next).raiseWatermark f.sender wm))) ∧
      (∀ target inc ranges, f.body = .request target inc ranges →
        s.sequencerTake f = s.suppress target inc ranges) ∧
      (∀ first recs, f.body = .repeatRecords first recs →
        (e.next = none → s.sequencerTake f = s) ∧
        (e.next ≠ none → s.sequencerTake f = s.takeRecords f.sender f.incarnation first recs)) ∧
      (∀ first count, f.body = .repeatGone first count →
        (e.next = none → s.sequencerTake f = s) ∧
        (e.next ≠ none → s.sequencerTake f = s.takeGone f.sender first count.toNat))

/-- R95, R97, R98, R100, R101: one record of a peer against its entry and the gap table: new at NE, new above NE with a
gap, NO-ROOM or BEYOND hole, filler, or duplicate. A gap is due from its opening (log 12), and the BEYOND holes of
`advanceNext` (R98) arrive before the record (log 13): both are the model's choice. -/
def Obligations.RecordIsSorted : Prop :=
  ∀ (s : State) (r : Record) (e : SeqEntry) (ne : Seq), s.seqEntry r.station = some e → e.next = some ne →
    (r.seq = ne → s.takeRecord r = (s.advanceNext r.station (ne + 1)).accept r) ∧
    (r.seq ≠ ne → (r.seq - ne).toNat < 2 ^ 15 →
      ((r.seq - ne).toNat ≤ 1024 → s.sequencer.gaps.length < 32 →
        s.takeRecord r =
          ((s.setGaps
            (insertGap ⟨r.station, e.incarnation, ne, (r.seq - ne).toNat, e.watermark, 0, s.l, .waiting, true⟩
              s.sequencer.gaps)).advanceNext r.station (r.seq + 1)).accept r) ∧
      ((r.seq - ne).toNat ≤ 1024 → 32 ≤ s.sequencer.gaps.length →
        s.takeRecord r =
          ((s.makeHole ⟨r.station, e.incarnation, ne, (r.seq - ne).toNat, .noRoom, e.watermark⟩).advanceNext
            r.station (r.seq + 1)).accept r) ∧
      (1024 < (r.seq - ne).toNat →
        s.takeRecord r =
          ((s.makeHole ⟨r.station, e.incarnation, ne, 1024, .beyond, e.watermark⟩).advanceNext
            r.station (r.seq + 1)).accept r)) ∧
    (2 ^ 15 ≤ (r.seq - ne).toNat →
      ((∀ g ∈ s.sequencer.gaps, g.station = r.station → g.contains r.seq = false) →
        s.takeRecord r = s.count .duplicatesDiscarded) ∧
      (∀ (g : Gap) above below, s.sequencer.gaps = above ++ g :: below →
        (∀ x ∈ above, x.station = r.station → x.contains r.seq = false) →
        g.station = r.station → g.contains r.seq = true →
        (r.seq = g.first → g.count = 1 → s.takeRecord r = (s.setGaps (above ++ below)).accept r) ∧
        (r.seq = g.first → 1 < g.count →
          s.takeRecord r =
            (s.setGaps
              (above ++ { g with first := g.first + 1, count := g.count - 1, tries := 0 } :: below)).accept r) ∧
        (r.seq ≠ g.first → r.seq = g.last →
          s.takeRecord r =
            (s.setGaps (above ++ { g with count := g.count - 1, tries := 0 } :: below)).accept r) ∧
        (r.seq ≠ g.first → r.seq ≠ g.last → s.sequencer.gaps.length < 32 →
          s.takeRecord r =
            (s.setGaps
              (above ++ { g with count := (r.seq - g.first).toNat, tries := 0 } ::
                { g with
                  first := r.seq + 1, count := g.count - 1 - (r.seq - g.first).toNat, tries := 0 } ::
                below)).accept r) ∧
        (r.seq ≠ g.first → r.seq ≠ g.last → 32 ≤ s.sequencer.gaps.length → s.takeRecord r = s)))

/-- R98, R106, R107: another station's REQUEST pushes the deadline of each gap it overlaps that is due or WAITING, and counts
each; a GONE range makes a hole of its part in each gap, in table order, and leaves the rest with its tries at 0, unless
it would split a gap with 32 in the table; an advance of NE closes the gaps it leaves 32,768 or more below as BEYOND
holes; that these arrive in table order is the model's reading (log 7). Every gap of the table misses 1 to 1,024 numbers
(R97), which `StoresStayRight` keeps. -/
def Obligations.SuppressionGoneAndBeyond : Prop :=
  ∀ s : State, (∀ g ∈ s.sequencer.gaps, 1 ≤ g.count ∧ g.count ≤ 1024) →
    (∀ (target : Station) (inc : Byte) (ranges : List SeqRange) (hit : Gap → Bool),
      (∀ g, hit g = true ↔
        g.station = target ∧ g.incarnation = inc ∧ (g.due = true ∨ g.state = .waiting) ∧
          ∃ r ∈ ranges, ∃ j k : Nat, j < r.count.toNat ∧ k < g.count ∧
            r.first + BitVec.ofNat 16 j = g.first + BitVec.ofNat 16 k) →
      ∃ c : Counters,
        (c.requestsSuppressed).toNat =
          min 65535 (s.counters.requestsSuppressed.toNat + (s.sequencer.gaps.filter hit).length) ∧
        { c with requestsSuppressed := s.counters.requestsSuppressed } = s.counters ∧
        s.suppress target inc ranges =
          { s with
            counters := c
            sequencer :=
              { s.sequencer with
                gaps := s.sequencer.gaps.map fun g =>
                  if hit g then { g with deadline := s.l + millis s.setup.requestTimeout, due := false }
                  else g } }) ∧
    (∀ (i : Station) (first : Seq) (count : Byte),
      s.takeGone i first count.toNat =
        (s.sequencer.gaps.filter fun g => g.station == i).foldl (fun u g => u.goneGap first count.toNat g) s ∧
      ∀ (g : Gap) above below, s.sequencer.gaps = above ++ g :: below →
        (∀ x ∈ above, ¬(x.station = g.station ∧ x.first = g.first)) →
        ((∀ k, k < g.count → count.toNat ≤ (g.first + BitVec.ofNat 16 k - first).toNat) →
          s.goneGap first count.toNat g = s) ∧
        ∀ lo len : Nat, 1 ≤ len → lo + len ≤ g.count →
          (∀ k, k < g.count →
            ((g.first + BitVec.ofNat 16 k - first).toNat < count.toNat ↔ lo ≤ k ∧ k < lo + len)) →
          (0 < lo → lo + len < g.count → 32 ≤ s.sequencer.gaps.length →
            s.goneGap first count.toNat g = s) ∧
          (lo = 0 ∨ lo + len = g.count ∨ s.sequencer.gaps.length < 32 →
            s.goneGap first count.toNat g =
              (s.setGaps
                (above ++ ((if lo = 0 then [] else [{ g with count := lo, tries := 0 }]) ++
                  (if lo + len = g.count then []
                    else [{ g with
                      first := g.first + BitVec.ofNat 16 (lo + len), count := g.count - (lo + len),
                      tries := 0 }])) ++ below)).makeHole
                ⟨g.station, g.incarnation, g.first + BitVec.ofNat 16 lo, len, .gone, g.bound⟩)) ∧
    ∀ (i : Station) (next : Seq),
      (s.seqEntry i = none → s.advanceNext i next = s) ∧
      ∀ (e : SeqEntry) (far : Gap → Bool), s.seqEntry i = some e →
        (∀ g, far g = true ↔ g.station = i ∧ 32768 ≤ (next - g.first).toNat) →
        s.advanceNext i next =
          (s.sequencer.gaps.filter far).foldl
            (fun u g => u.makeHole ⟨g.station, g.incarnation, g.first, g.count, .beyond, g.bound⟩)
            ((s.setSeqEntry i (some { e with next := some next })).setGaps
              (s.sequencer.gaps.filter fun g => !far g))

/-- R108, R109, R110, R111: a closed range makes one hole marker, counted, which arrives at the pool for stream A, and B with
Holes to B. A restart closes the station's gaps as RESTART holes, and a join lapse, an expel or a leave as LEFT holes, in
table order; other stations' gaps stay. -/
def Obligations.HolesReachThePool : Prop :=
  ∀ s : State,
    (∀ h : Hole, ∃ u : State,
      u = { s with counters := s.counters.advance .holesCreated, lossAdvanced := true } ∧
      s.makeHole h = u.arrive ⟨.hole h, if s.setup.holesToB then .bothStreams else .stream .a⟩ ∧
      OnlyJournal s (s.makeHole h)) ∧
    ∀ i : Station,
      (∀ inc : Byte,
        s.tellRestart i inc =
          ((s.sequencer.gaps.filter fun g => g.station == i).foldl
            (fun u g => u.makeHole ⟨g.station, g.incarnation, g.first, g.count, .restart, g.bound⟩)
            (s.setGaps (s.sequencer.gaps.filter fun g => g.station != i))).setSeqEntry i (some ⟨inc, none, 0⟩) ∧
        (s.tellRestart i inc).sequencer.gaps = s.sequencer.gaps.filter fun g => g.station != i) ∧
      s.tellGone i =
        ((s.sequencer.gaps.filter fun g => g.station == i).foldl
          (fun u g => u.makeHole ⟨g.station, g.incarnation, g.first, g.count, .left, g.bound⟩)
          (s.setGaps (s.sequencer.gaps.filter fun g => g.station != i))).setSeqEntry i none ∧
      (s.tellGone i).sequencer.gaps = s.sequencer.gaps.filter fun g => g.station != i

/-! ### The acceptance unit, the merge pool and the streams -/

/-- R115. -/
def Obligations.EventKeyAndMatching : Prop :=
  (∀ r : Record,
    r.key.toNat = r.station.val * 8192 + r.data.channel.val * 256 + r.data.code.toNat ∧
    (r.key.extractLsb' 0 8 = r.data.code ∧ (r.key.extractLsb' 8 5).toNat = r.data.channel.val ∧
      (r.key.extractLsb' 13 5).toNat = r.station.val) ∧
    ∀ inc, ({ r with incarnation := inc } : Record).key = r.key) ∧
  ∀ (rule : Rule) (k : Key),
    (rule.kind = .disabled → rule.matchesKey k = false) ∧
    (rule.kind = .range → (rule.matchesKey k = true ↔ rule.a.toNat ≤ k.toNat ∧ k.toNat ≤ rule.b.toNat)) ∧
    (rule.kind = .pair → (rule.matchesKey k = true ↔ k = rule.a ∨ k = rule.b)) ∧
    (rule.kind = .range ∨ rule.kind = .pair → rule.a = rule.b → (rule.matchesKey k = true ↔ k = rule.a)) ∧
    (rule.kind = .masked →
      (rule.matchesKey k = true ↔
        ∀ i, i < 18 → rule.b.getLsbD i = true → k.getLsbD i = rule.a.getLsbD i) ∧
      (rule.b = 0 → rule.matchesKey k = true) ∧
      (rule.b.toNat = 262143 → (rule.matchesKey k = true ↔ k = rule.a)))

/-- R116, R118, R119, R120: the first matching rule decides the note and the route; without one, the default action. -/
def Obligations.FirstMatchDecides : Prop :=
  ∀ (s : State) (r : Record),
    (∀ i : Fin 48, (s.setup.rules[i.val]).matchesKey r.key = true →
      (∀ j : Fin 48, j < i → (s.setup.rules[j.val]).matchesKey r.key = false) →
      ∃ u : State,
        ((s.setup.rules[i.val]).urgent = false → u = s) ∧
        ((s.setup.rules[i.val]).urgent = true → s.urgent.notes.length < 4 →
          u = { s with
            urgent :=
              ⟨s.urgent.notes ++
                [⟨r.station, r.data.channel, r.data.code, r.seq, r.data.timestamp, (s.setup.rules[i.val]).action,
                  (s.setup.rules[i.val]).slot⟩], s.urgent.overflow⟩ }) ∧
        ((s.setup.rules[i.val]).urgent = true → 4 ≤ s.urgent.notes.length →
          u = { s with
            urgent := ⟨s.urgent.notes, true⟩
            counters := s.counters.advance .urgentOverflows
            lossAdvanced := true }) ∧
        s.accept r =
          match (s.setup.rules[i.val]).action with
          | .toA => u.arrive ⟨.record r, .stream .a⟩
          | .toB => u.arrive ⟨.record r, .stream .b⟩
          | .latch => u.arrive ⟨.record r, .slot (s.setup.rules[i.val]).slot⟩
          | .discard => u) ∧
    ((∀ i : Fin 48, (s.setup.rules[i.val]).matchesKey r.key = false) →
      s.accept r =
        match s.setup.defaultAction with
        | .toA => s.arrive ⟨.record r, .stream .a⟩
        | .toB => s.arrive ⟨.record r, .stream .b⟩
        | .discard => s)

/-- R82, R84, R128: the horizon, the local horizon and an announced watermark are each the earliest of their inputs,
whenever the inputs lie within half the range of the count (where they do not, log 9). -/
def Obligations.HorizonIsEarliest : Prop :=
  ∀ (s : State) (base : Time),
    ((∀ x ∈ s.st :: s.pendingTimes, (x - base).toNat < 2 ^ 47) →
      s.localHorizon ∈ s.st :: s.pendingTimes ∧
        (∀ x ∈ s.st :: s.pendingTimes, (s.localHorizon - base).toNat ≤ (x - base).toNat) ∧
      ((∀ x ∈ (List.finRange 32).filterMap s.heldWatermark, (x - base).toNat < 2 ^ 47) →
        (∀ g ∈ s.sequencer.gaps, (g.bound - base).toNat < 2 ^ 47) →
        (s.horizon = s.localHorizon ∨ s.horizon ∈ (List.finRange 32).filterMap s.heldWatermark ∨
          ∃ g ∈ s.sequencer.gaps, s.horizon = g.bound) ∧
        (s.horizon - base).toNat ≤ (s.localHorizon - base).toNat ∧
        (∀ x ∈ (List.finRange 32).filterMap s.heldWatermark, (s.horizon - base).toNat ≤ (x - base).toNat) ∧
        ∀ g ∈ s.sequencer.gaps, (s.horizon - base).toNat ≤ (g.bound - base).toNat)) ∧
    (∀ n, (∀ x ∈ s.st :: s.pendingTimes ++ (s.outbound.outq.drop n).map (·.data.timestamp),
        (x - base).toNat < 2 ^ 47) →
      s.watermark n ∈ s.st :: s.pendingTimes ++ (s.outbound.outq.drop n).map (·.data.timestamp) ∧
      ∀ x ∈ s.st :: s.pendingTimes ++ (s.outbound.outq.drop n).map (·.data.timestamp),
        (s.watermark n - base).toNat ≤ (x - base).toNat) ∧
    (∀ (i : Station) (x : Time),
      s.heldWatermark i = some x ↔
        i ≠ s.own ∧ (s.entry i).state = .live ∧
          ∃ e, s.seqEntry i = some e ∧ e.next.isSome = true ∧ e.watermark = x)

/-- R129, R131, R133, R135, R146: ordered release: R becomes the horizon if that is later; the entries behind R leave the head
in order until one is not behind R or is held by a full HOLD stream; one that leaves finds no stream of its destination
held so when it leaves (R133, R135). Outside ACTIVE and LEAVING nothing happens. -/
def Obligations.OrderedReleaseSettles : Prop :=
  ∀ s : State,
    (s.mode.working = false → exec .orderedRelease s = .next s) ∧
    (s.mode = .active ∨ s.mode = .leaving →
      ∃ (t : State) (gone : List PoolEntry), exec .orderedRelease s = .next t ∧ OnlyJournal s t ∧
        t.journal.through =
          (if timeLater s.horizon s.journal.through = true then s.horizon else s.journal.through) ∧
        s.journal.pool = gone ++ t.journal.pool ∧
        (∀ e ∈ gone, timeEarlier e.item.timestamp t.journal.through = true) ∧
        t = gone.foldl (fun u e => u.deliver e false false)
          ((s.setThrough t.journal.through).setPool t.journal.pool) ∧
        (∀ pre e post, gone = pre ++ e :: post →
          ∀ id : StreamId, e.destination = .stream id ∨ e.destination = .bothStreams →
            (s.setup.stream id).mode = .hold →
            ((pre.foldl (fun u e => u.deliver e false false)
              ((s.setThrough t.journal.through).setPool t.journal.pool)).stream id).entries.length < 64) ∧
        ∀ e rest, t.journal.pool = e :: rest →
          timeEarlier e.item.timestamp t.journal.through = false ∨
          ∃ id : StreamId, (e.destination = .stream id ∨ e.destination = .bothStreams) ∧
            (s.setup.stream id).mode = .hold ∧ 64 ≤ (t.stream id).entries.length)

/-- R132, R134, R135, R150, R151, R156, R161: what a write and a drop do to a stream, and a write to a latch slot. That a
write in SETUP would leave the idle timer stopped is log 24's reading (no write occurs there). -/
def Obligations.DeliveryReachesDestination : Prop :=
  ∀ (s : State) (item : Item) (late forced : Bool),
    (∀ id : StreamId,
      ((s.stream id).entries.length < 64 →
        s.deliver ⟨item, .stream id⟩ late forced =
          { s with
            journal := s.journal.setStream id
              { s.stream id with
                entries := (s.stream id).entries ++
                  [⟨item, late, forced, if (s.stream id).dropped = 0 then none else some (s.stream id).dropped⟩]
                dropped := 0
                idleTimer :=
                  if s.mode = Mode.setup then (s.stream id).idleTimer
                  else some (s.l + millis (s.setup.stream id).idleTimeout) } }) ∧
      (64 ≤ (s.stream id).entries.length →
        s.deliver ⟨item, .stream id⟩ late forced =
          { s with
            journal := s.journal.setStream id
              { s.stream id with dropped := saturate8 (s.stream id).dropped }
            counters := s.counters.advance (match id with | .a => .streamADropped | .b => .streamBDropped)
            lossAdvanced := true })) ∧
    s.deliver ⟨item, .bothStreams⟩ late forced =
      (s.deliver ⟨item, .stream .a⟩ late forced).deliver ⟨item, .stream .b⟩ late forced ∧
    (∀ (n : SlotNo) (r : Record), item = .record r →
      s.deliver ⟨item, .slot n⟩ late forced =
        { s with
          journal := { s.journal with latches := s.journal.latches.set n.val (some ⟨r, forced, true⟩) } })

/-- R126, R136, R137, R138, R139, R140, R143, R146: journal order, and what becomes of an arriving entry, the forced
release apart. An entry that is inserted comes after every pooled entry that it does not stand before and before the
others, where the pool has such a place, and otherwise somewhere (log 10). -/
def Obligations.ArrivalAtThePool : Prop :=
  (∀ a b : Item,
    a.standsBefore b = true ↔
      a.timestamp ≠ b.timestamp ∧ 1 ≤ (b.timestamp - a.timestamp).toNat ∧
          (b.timestamp - a.timestamp).toNat ≤ 2 ^ 47 ∨
        a.timestamp = b.timestamp ∧
          (a.station < b.station ∨
            a.station = b.station ∧
              (a.incarnation.toNat < b.incarnation.toNat ∨
                a.incarnation = b.incarnation ∧
                  (a.seq.toNat < b.seq.toNat ∨
                    a.seq = b.seq ∧ (∃ h, a = .hole h) ∧ ∃ r, b = .record r)))) ∧
  (∀ (r : Record) (h : Hole),
    (Item.timestamp (.record r) = r.data.timestamp ∧ Item.station (.record r) = r.station ∧
      Item.incarnation (.record r) = r.incarnation ∧ Item.seq (.record r) = r.seq) ∧
    (Item.timestamp (.hole h) = h.bound ∧ Item.station (.hole h) = h.station ∧
      Item.incarnation (.hole h) = h.incarnation ∧ Item.seq (.hole h) = h.first)) ∧
  ∀ (s : State) (e : PoolEntry),
    ((∃ x ∈ s.journal.pool, e.item.sameRecord x.item = true) → s.arrive e = s.count .duplicatesDiscarded) ∧
    ((∀ x ∈ s.journal.pool, e.item.sameRecord x.item = false) →
      (s.mode = .setup ∨ s.mode = .stopped → s.arrive e = s) ∧
      ((s.mode = .listening ∨
          (s.mode = .active ∨ s.mode = .leaving) ∧
            timeEarlier e.item.timestamp s.journal.through = false) →
        s.journal.pool.length < 256 →
        ∃ pre post, s.journal.pool = pre ++ post ∧
          s.arrive e = { s with journal := { s.journal with pool := pre ++ e :: post } } ∧
          ∀ ahead after, s.journal.pool = ahead ++ after →
            (∀ x ∈ ahead, e.item.standsBefore x.item = false) →
            (∀ x ∈ after, e.item.standsBefore x.item = true ∧ x.item.standsBefore e.item = false) →
            pre = ahead) ∧
      ((s.mode = .active ∨ s.mode = .leaving) → timeEarlier e.item.timestamp s.journal.through = true →
        (∀ h, e.item = .hole h → s.arrive e = s.deliver e true false) ∧
        (∀ r n, e.item = .record r → e.destination = .slot n → s.arrive e = s.count .lateDropped) ∧
        (∀ r id, e.item = .record r → e.destination = .stream id →
          (s.setup.latePolicy = .deliver → s.arrive e = s.deliver e true false) ∧
          (s.setup.latePolicy = .drop → s.arrive e = s.count .lateDropped))) ∧
      (∀ first rest, s.mode = .listening → 256 ≤ s.journal.pool.length →
        insertInOrder e s.journal.pool = first :: rest →
        (∀ id, first.destination = .stream id →
          ∃ u : State,
            u = (({ s with
              journal := s.journal.setStream id
                { s.stream id with dropped := saturate8 (s.stream id).dropped } } : State).count
              .forcedReleases).count (.streamDropped id) ∧
            s.arrive e = { u with journal := { u.journal with pool := rest } }) ∧
        (first.destination = .bothStreams →
          s.arrive e =
            { s with
              journal :=
                { s.journal with
                  pool := rest
                  streamA := { s.journal.streamA with dropped := saturate8 s.journal.streamA.dropped }
                  streamB := { s.journal.streamB with dropped := saturate8 s.journal.streamB.dropped } }
              counters :=
                ((s.counters.advance .forcedReleases).advance .streamADropped).advance .streamBDropped
              lossAdvanced := true }) ∧
        (∀ n, first.destination = .slot n →
          s.arrive e = (({ s with journal := { s.journal with pool := rest } } : State).count
            .forcedReleases).count .lateDropped)))

/-- R141, R142: an entry that is not late and finds 256 entries forces the head out, with FORCED, moves R past it,
lets release go on, and is then tested again. -/
def Obligations.ForcedRelease : Prop :=
  ∀ (s : State) (e h : PoolEntry) (rest : List PoolEntry), s.mode = .active ∨ s.mode = .leaving →
    (∀ x ∈ s.journal.pool, e.item.sameRecord x.item = false) →
    timeEarlier e.item.timestamp s.journal.through = false → s.journal.pool = h :: rest →
    256 ≤ s.journal.pool.length →
    ∃ v w : State,
      v = ((s.setPool rest).deliver h false true).count .forcedReleases ∧
      w = ({ v with
        journal :=
          { v.journal with
            through :=
              if timeLater (h.item.timestamp + 1) s.journal.through = true then h.item.timestamp + 1
              else s.journal.through } } : State).releaseReady ∧
      w.journal.pool.length < s.journal.pool.length ∧ OnlyJournal s w ∧
      (timeEarlier e.item.timestamp w.journal.through = true → s.arrive e = w.takeLate e) ∧
      (timeEarlier e.item.timestamp w.journal.through = false →
        s.arrive e = { w with journal := { w.journal with pool := insertInOrder e w.journal.pool } })

/-! ### Frames and invariants -/

/-- R4 to R12, R15, Tables 1-1 to 1-6, R5: every legal frame that is sent is read back as the GOOD frame it is, and its bytes
stand where the tables have them: the header and the CRC over the bytes after SYNC, the body of each kind, and a record.
The CRC's register starts at all ones, takes each byte least significant bit first and shifts toward that end. -/
def Obligations.FrameRoundTrip : Prop :=
  (∀ f : Frame, f.body.legal →
    classify f.toBytes false = .good f ∧
    ∃ d body : List Byte, d = f.toBytes ∧ body = f.body.toBytes ∧ body.length < 256 ∧ d.length = 13 + body.length ∧
      d[0]? = some 0xA7 ∧
      (∃ kind, d[1]? = some kind ∧
        kind.toNat % 8 =
          (match f.body with
          | .event _ _ _ => 1 | .beacon _ _ _ => 2 | .request _ _ _ => 3 | .repeatRecords _ _ | .repeatGone _ _ => 4) ∧
        kind.getLsbD 3 = f.clockAgreed ∧
        (kind.getLsbD 4 = true ↔ ∃ wm next, f.body = .beacon wm next true) ∧
        (kind.getLsbD 5 = true ↔ ∃ first count, f.body = .repeatGone first count) ∧
        kind.getLsbD 6 = false ∧ kind.getLsbD 7 = false) ∧
      (∃ sender, d[2]? = some sender ∧ sender.toNat = f.sender.val) ∧ d[3]? = some f.incarnation ∧
      takeField 6 (d.drop 4) = some (f.sendStamp.toNat, d.drop 10) ∧
      (∃ n, d[10]? = some n ∧ n.toNat = body.length) ∧ (d.drop 11).take body.length = body ∧
      takeField 2 (d.drop (11 + body.length)) = some ((crcOf ((d.drop 1).take (10 + body.length))).toNat, []) ∧
      (∀ wm first recs, f.body = .event wm first recs →
        takeField 6 body = some (wm.toNat, body.drop 6) ∧
        takeField 2 (body.drop 6) = some (first.toNat, body.drop 8) ∧
        body.drop 8 = BitVec.ofNat 8 recs.length :: recs.flatMap EventData.toBytes) ∧
      (∀ wm next leaving, f.body = .beacon wm next leaving →
        takeField 6 body = some (wm.toNat, body.drop 6) ∧ takeField 2 (body.drop 6) = some (next.toNat, [])) ∧
      (∀ target inc ranges, f.body = .request target inc ranges →
        (∃ st, body[0]? = some st ∧ st.toNat = target.val) ∧ body[1]? = some inc ∧
        body[2]? = some (BitVec.ofNat 8 ranges.length) ∧ body.length = 3 + 3 * ranges.length ∧
        ∀ k r, ranges[k]? = some r →
          takeField 2 (body.drop (3 + 3 * k)) = some (r.first.toNat, body.drop (5 + 3 * k)) ∧
          body[5 + 3 * k]? = some r.count) ∧
      (∀ first recs, f.body = .repeatRecords first recs →
        takeField 2 body = some (first.toNat, body.drop 2) ∧
        body.drop 2 = BitVec.ofNat 8 recs.length :: recs.flatMap EventData.toBytes) ∧
      ∀ first count, f.body = .repeatGone first count → takeField 2 body = some (first.toNat, [count])) ∧
  (∀ (r : EventData) (d : List Byte), d = r.toBytes →
    (∃ flags, d[0]? = some flags ∧ flags.toNat % 32 = r.channel.val ∧ flags.getLsbD 5 = r.value.isSome ∧
      flags.getLsbD 6 = r.unsure ∧ flags.getLsbD 7 = r.loss.isSome) ∧
    d[1]? = some r.code ∧ takeField 6 (d.drop 2) = some (r.timestamp.toNat, d.drop 8) ∧
    (r.value = none → d.drop 8 = r.loss.toList) ∧
    ∀ v, r.value = some v → takeField 2 (d.drop 8) = some (v.toNat, r.loss.toList)) ∧
  crcOf [] = 0xFFFF ∧
  ∀ (bs : List Byte) (b : Byte),
    crcOf (bs ++ [b]) =
      (List.range 8).foldl
        (fun (c : BitVec 16) i => if c.getLsbD 0 = b.getLsbD i then c >>> 1 else (c >>> 1) ^^^ 0x8408) (crcOf bs)

/-- R11, R12: a framing error, a wrong first byte, a short frame and a long one are told apart in the order of the checks; a
good CRC under a sender above 31 is CRC-FAILED; contents that break a rule are MALFORMED, and all others GOOD, with the
fields of the header. -/
def Obligations.FrameChecksDecideClass : Prop :=
  ∀ (bs : List Byte),
    classify bs true = .crcFailed ∧
    (bs.length < 11 → classify bs false = .cutShort) ∧
    (∀ first rest, bs = first :: rest → 11 ≤ bs.length → first ≠ 0xA7 → classify bs false = .crcFailed) ∧
    (∀ n : Byte, bs[0]? = some 0xA7 → bs[10]? = some n → bs.length < 13 + n.toNat →
      classify bs false = .cutShort) ∧
    (∀ n : Byte, bs[0]? = some 0xA7 → bs[10]? = some n → 13 + n.toNat < bs.length →
      classify bs false = .crcFailed) ∧
    (∀ n : Byte, bs[0]? = some 0xA7 → bs[10]? = some n → bs.length = 13 + n.toNat →
      (bs.drop (11 + n.toNat) ≠ leBytes 2 (crcOf ((bs.drop 1).take (10 + n.toNat))).toNat →
        classify bs false = .crcFailed) ∧
      (bs.drop (11 + n.toNat) = leBytes 2 (crcOf ((bs.drop 1).take (10 + n.toNat))).toNat →
        ∀ kind sender inc : Byte, bs[1]? = some kind → bs[2]? = some sender → bs[3]? = some inc →
          (31 < sender.toNat → classify bs false = .crcFailed) ∧
          ∀ i : Station, i.val = sender.toNat →
            (contentsRight kind ((bs.drop 11).take n.toNat) = false → classify bs false = .malformed i) ∧
            (contentsRight kind ((bs.drop 11).take n.toNat) = true →
              ∃ (stamp : Time) (b : Body), classify bs false = .good ⟨i, inc, kind.getLsbD 3, stamp, b⟩ ∧
                takeField 6 (bs.drop 4) = some (stamp.toNat, bs.drop 10) ∧ b.legal)))

/-- Every store stays within its capacity, every gap misses 1 to 1,024 numbers (R97), and the flags that say something is
held stay true to it, in every step from every state where they are. -/
def Obligations.StoresStayRight : Prop :=
  ∀ s t : State, s.StoresRight → step s = .next t → t.StoresRight

/-- The tables agree, the own entry follows the mode, a frame in flight and the pending states stand only where they may,
the slew debt stays within its bound and SETUP stays clear, in every step from every state where this holds. -/
def Obligations.BlocksStayRight : Prop :=
  ∀ s t : State, s.BlocksRight → step s = .next t → t.BlocksRight

/-- After a full reset, RST released or held, and in the state of the machine's reset, both invariants hold. -/
def Obligations.ResetMeetsInvariants : Prop :=
  State.reset.StoresRight ∧ State.reset.BlocksRight ∧
  ∀ (rst : ResetLine) (s : State), ∃ t, exec (.fullReset rst) s = .next t ∧ t.StoresRight ∧ t.BlocksRight
end

