-- ==== Sys2Proof/Laws/State.lean ====
section
/-! SUPPORT. One lemma per field for each update of the state, so that no later proof unfolds a record
update. -/

namespace Sys2Proof.Machine

variable (s : State)

/-! ### Tables indexed by station, input and stream -/

@[simp] theorem State.entry_setEntry_self (i : Station) (e : RosterEntry) : (s.setEntry i e).entry i = e := by
  simp [State.entry, State.setEntry]

theorem State.entry_setEntry (i j : Station) (e : RosterEntry) :
    (s.setEntry i e).entry j = if j = i then e else s.entry j := by
  simp only [State.entry, State.setEntry, Vector.getElem_set, Fin.ext_iff, eq_comm]

@[simp] theorem State.seqEntry_setEntry (i j : Station) (e : RosterEntry) :
    (s.setEntry i e).seqEntry j = s.seqEntry j := rfl
@[simp] theorem State.setup_setEntry (i : Station) (e : RosterEntry) : (s.setEntry i e).setup = s.setup := rfl
@[simp] theorem State.line_setEntry (i : Station) (e : RosterEntry) : (s.setEntry i e).line = s.line := rfl
@[simp] theorem State.clock_setEntry (i : Station) (e : RosterEntry) : (s.setEntry i e).clock = s.clock := rfl
@[simp] theorem State.capture_setEntry (i : Station) (e : RosterEntry) : (s.setEntry i e).capture = s.capture := rfl
@[simp] theorem State.outbound_setEntry (i : Station) (e : RosterEntry) :
    (s.setEntry i e).outbound = s.outbound := rfl
@[simp] theorem State.sequencer_setEntry (i : Station) (e : RosterEntry) :
    (s.setEntry i e).sequencer = s.sequencer := rfl
@[simp] theorem State.urgent_setEntry (i : Station) (e : RosterEntry) : (s.setEntry i e).urgent = s.urgent := rfl
@[simp] theorem State.journal_setEntry (i : Station) (e : RosterEntry) : (s.setEntry i e).journal = s.journal := rfl
@[simp] theorem State.counters_setEntry (i : Station) (e : RosterEntry) :
    (s.setEntry i e).counters = s.counters := rfl
@[simp] theorem State.host_setEntry (i : Station) (e : RosterEntry) : (s.setEntry i e).host = s.host := rfl
@[simp] theorem State.pending_setEntry (i : Station) (e : RosterEntry) : (s.setEntry i e).pending = s.pending := rfl
@[simp] theorem State.receiveData_setEntry (i : Station) (e : RosterEntry) :
    (s.setEntry i e).receiveData = s.receiveData := rfl
@[simp] theorem State.inReset_setEntry (i : Station) (e : RosterEntry) :
    (s.setEntry i e).inReset = s.inReset := rfl

@[simp] theorem State.seqEntry_setSeqEntry_self (i : Station) (e : Option SeqEntry) :
    (s.setSeqEntry i e).seqEntry i = e := by
  simp [State.seqEntry, State.setSeqEntry]

theorem State.seqEntry_setSeqEntry (i j : Station) (e : Option SeqEntry) :
    (s.setSeqEntry i e).seqEntry j = if j = i then e else s.seqEntry j := by
  simp only [State.seqEntry, State.setSeqEntry, Vector.getElem_set, Fin.ext_iff, eq_comm]

@[simp] theorem State.gaps_setSeqEntry (i : Station) (e : Option SeqEntry) :
    (s.setSeqEntry i e).sequencer.gaps = s.sequencer.gaps := rfl
@[simp] theorem State.entry_setSeqEntry (i j : Station) (e : Option SeqEntry) :
    (s.setSeqEntry i e).entry j = s.entry j := rfl
@[simp] theorem State.setup_setSeqEntry (i : Station) (e : Option SeqEntry) :
    (s.setSeqEntry i e).setup = s.setup := rfl
@[simp] theorem State.line_setSeqEntry (i : Station) (e : Option SeqEntry) :
    (s.setSeqEntry i e).line = s.line := rfl
@[simp] theorem State.clock_setSeqEntry (i : Station) (e : Option SeqEntry) :
    (s.setSeqEntry i e).clock = s.clock := rfl
@[simp] theorem State.roster_setSeqEntry (i : Station) (e : Option SeqEntry) :
    (s.setSeqEntry i e).roster = s.roster := rfl
@[simp] theorem State.capture_setSeqEntry (i : Station) (e : Option SeqEntry) :
    (s.setSeqEntry i e).capture = s.capture := rfl
@[simp] theorem State.outbound_setSeqEntry (i : Station) (e : Option SeqEntry) :
    (s.setSeqEntry i e).outbound = s.outbound := rfl
@[simp] theorem State.urgent_setSeqEntry (i : Station) (e : Option SeqEntry) :
    (s.setSeqEntry i e).urgent = s.urgent := rfl
@[simp] theorem State.journal_setSeqEntry (i : Station) (e : Option SeqEntry) :
    (s.setSeqEntry i e).journal = s.journal := rfl
@[simp] theorem State.counters_setSeqEntry (i : Station) (e : Option SeqEntry) :
    (s.setSeqEntry i e).counters = s.counters := rfl
@[simp] theorem State.host_setSeqEntry (i : Station) (e : Option SeqEntry) :
    (s.setSeqEntry i e).host = s.host := rfl
@[simp] theorem State.pending_setSeqEntry (i : Station) (e : Option SeqEntry) :
    (s.setSeqEntry i e).pending = s.pending := rfl
@[simp] theorem State.receiveData_setSeqEntry (i : Station) (e : Option SeqEntry) :
    (s.setSeqEntry i e).receiveData = s.receiveData := rfl
@[simp] theorem State.inReset_setSeqEntry (i : Station) (e : Option SeqEntry) :
    (s.setSeqEntry i e).inReset = s.inReset := rfl

@[simp] theorem State.gaps_setGaps (gs : List Gap) : (s.setGaps gs).sequencer.gaps = gs := rfl
@[simp] theorem State.table_setGaps (gs : List Gap) : (s.setGaps gs).sequencer.table = s.sequencer.table := rfl
@[simp] theorem State.seqEntry_setGaps (gs : List Gap) (i : Station) : (s.setGaps gs).seqEntry i = s.seqEntry i := rfl
@[simp] theorem State.entry_setGaps (gs : List Gap) (i : Station) : (s.setGaps gs).entry i = s.entry i := rfl
@[simp] theorem State.setup_setGaps (gs : List Gap) : (s.setGaps gs).setup = s.setup := rfl
@[simp] theorem State.line_setGaps (gs : List Gap) : (s.setGaps gs).line = s.line := rfl
@[simp] theorem State.clock_setGaps (gs : List Gap) : (s.setGaps gs).clock = s.clock := rfl
@[simp] theorem State.roster_setGaps (gs : List Gap) : (s.setGaps gs).roster = s.roster := rfl
@[simp] theorem State.capture_setGaps (gs : List Gap) : (s.setGaps gs).capture = s.capture := rfl
@[simp] theorem State.outbound_setGaps (gs : List Gap) : (s.setGaps gs).outbound = s.outbound := rfl
@[simp] theorem State.urgent_setGaps (gs : List Gap) : (s.setGaps gs).urgent = s.urgent := rfl
@[simp] theorem State.journal_setGaps (gs : List Gap) : (s.setGaps gs).journal = s.journal := rfl
@[simp] theorem State.counters_setGaps (gs : List Gap) : (s.setGaps gs).counters = s.counters := rfl
@[simp] theorem State.host_setGaps (gs : List Gap) : (s.setGaps gs).host = s.host := rfl
@[simp] theorem State.pending_setGaps (gs : List Gap) : (s.setGaps gs).pending = s.pending := rfl
@[simp] theorem State.receiveData_setGaps (gs : List Gap) :
    (s.setGaps gs).receiveData = s.receiveData := rfl
@[simp] theorem State.inReset_setGaps (gs : List Gap) :
    (s.setGaps gs).inReset = s.inReset := rfl

@[simp] theorem State.pendingEdge_setPendingEdge_self (i : InputNo) (p : Option PendingEdge) :
    (s.setPendingEdge i p).pendingEdge i = p := by
  simp [State.pendingEdge, State.setPendingEdge]

theorem State.pendingEdge_setPendingEdge (i j : InputNo) (p : Option PendingEdge) :
    (s.setPendingEdge i p).pendingEdge j = if j = i then p else s.pendingEdge j := by
  simp only [State.pendingEdge, State.setPendingEdge, Vector.getElem_set, Fin.ext_iff, eq_comm]

@[simp] theorem State.levels_setPendingEdge (i : InputNo) (p : Option PendingEdge) :
    (s.setPendingEdge i p).capture.levels = s.capture.levels := rfl
@[simp] theorem State.sampled_setPendingEdge (i : InputNo) (p : Option PendingEdge) :
    (s.setPendingEdge i p).capture.sampled = s.capture.sampled := rfl
@[simp] theorem State.lossCount_setPendingEdge (i : InputNo) (p : Option PendingEdge) :
    (s.setPendingEdge i p).capture.lossCount = s.capture.lossCount := rfl
@[simp] theorem State.setup_setPendingEdge (i : InputNo) (p : Option PendingEdge) :
    (s.setPendingEdge i p).setup = s.setup := rfl
@[simp] theorem State.line_setPendingEdge (i : InputNo) (p : Option PendingEdge) :
    (s.setPendingEdge i p).line = s.line := rfl
@[simp] theorem State.clock_setPendingEdge (i : InputNo) (p : Option PendingEdge) :
    (s.setPendingEdge i p).clock = s.clock := rfl
@[simp] theorem State.roster_setPendingEdge (i : InputNo) (p : Option PendingEdge) :
    (s.setPendingEdge i p).roster = s.roster := rfl
@[simp] theorem State.outbound_setPendingEdge (i : InputNo) (p : Option PendingEdge) :
    (s.setPendingEdge i p).outbound = s.outbound := rfl
@[simp] theorem State.sequencer_setPendingEdge (i : InputNo) (p : Option PendingEdge) :
    (s.setPendingEdge i p).sequencer = s.sequencer := rfl
@[simp] theorem State.urgent_setPendingEdge (i : InputNo) (p : Option PendingEdge) :
    (s.setPendingEdge i p).urgent = s.urgent := rfl
@[simp] theorem State.journal_setPendingEdge (i : InputNo) (p : Option PendingEdge) :
    (s.setPendingEdge i p).journal = s.journal := rfl
@[simp] theorem State.host_setPendingEdge (i : InputNo) (p : Option PendingEdge) :
    (s.setPendingEdge i p).host = s.host := rfl
@[simp] theorem State.pending_setPendingEdge (i : InputNo) (p : Option PendingEdge) :
    (s.setPendingEdge i p).pending = s.pending := rfl
@[simp] theorem State.receiveData_setPendingEdge (i : InputNo) (p : Option PendingEdge) :
    (s.setPendingEdge i p).receiveData = s.receiveData := rfl
@[simp] theorem State.inReset_setPendingEdge (i : InputNo) (p : Option PendingEdge) :
    (s.setPendingEdge i p).inReset = s.inReset := rfl

@[simp] theorem Journal.stream_setStream_self (j : Journal) (id : StreamId) (x : JournalStream) :
    (j.setStream id x).stream id = x := by
  cases id <;> rfl

theorem Journal.stream_setStream (j : Journal) (id k : StreamId) (x : JournalStream) :
    (j.setStream id x).stream k = if k = id then x else j.stream k := by
  cases id <;> cases k <;> rfl

@[simp] theorem Journal.setStream_setStream (j : Journal) (id : StreamId) (x y : JournalStream) :
    (j.setStream id x).setStream id y = j.setStream id y := by
  cases id <;> rfl

@[simp] theorem Journal.setStream_stream (j : Journal) (id : StreamId) : j.setStream id (j.stream id) = j := by
  cases id <;> rfl

@[simp] theorem Journal.pool_setStream (j : Journal) (id : StreamId) (x : JournalStream) :
    (j.setStream id x).pool = j.pool := by
  cases id <;> rfl

@[simp] theorem Journal.through_setStream (j : Journal) (id : StreamId) (x : JournalStream) :
    (j.setStream id x).through = j.through := by
  cases id <;> rfl

@[simp] theorem Journal.latches_setStream (j : Journal) (id : StreamId) (x : JournalStream) :
    (j.setStream id x).latches = j.latches := by
  cases id <;> rfl

@[simp] theorem State.stream_setStream_self (id : StreamId) (x : JournalStream) :
    (s.setStream id x).stream id = x := Journal.stream_setStream_self _ _ _

theorem State.stream_setStream (id k : StreamId) (x : JournalStream) :
    (s.setStream id x).stream k = if k = id then x else s.stream k := Journal.stream_setStream _ _ _ _

@[simp] theorem State.journal_setStream (id : StreamId) (x : JournalStream) :
    (s.setStream id x).journal = s.journal.setStream id x := rfl
@[simp] theorem State.setup_setStream (id : StreamId) (x : JournalStream) : (s.setStream id x).setup = s.setup := rfl
@[simp] theorem State.line_setStream (id : StreamId) (x : JournalStream) : (s.setStream id x).line = s.line := rfl
@[simp] theorem State.clock_setStream (id : StreamId) (x : JournalStream) : (s.setStream id x).clock = s.clock := rfl
@[simp] theorem State.mode_setStream (id : StreamId) (x : JournalStream) : (s.setStream id x).mode = s.mode := rfl
@[simp] theorem State.l_setStream (id : StreamId) (x : JournalStream) : (s.setStream id x).l = s.l := rfl
@[simp] theorem State.counters_setStream (id : StreamId) (x : JournalStream) :
    (s.setStream id x).counters = s.counters := rfl
@[simp] theorem State.receiveData_setStream (id : StreamId) (x : JournalStream) :
    (s.setStream id x).receiveData = s.receiveData := rfl
@[simp] theorem State.inReset_setStream (id : StreamId) (x : JournalStream) :
    (s.setStream id x).inReset = s.inReset := rfl

/-! ### Counters -/

theorem Counters.get_advance (c : Counters) (k j : Counter) :
    (c.advance k).get j = if j = k then saturate16 (c.get j) else c.get j := by
  cases k <;> cases j <;> rfl

@[simp] theorem State.counters_count (k : Counter) : (s.count k).counters = s.counters.advance k := rfl
@[simp] theorem State.lossAdvanced_count (k : Counter) :
    (s.count k).lossAdvanced = (s.lossAdvanced || k.isLoss) := rfl
@[simp] theorem State.journal_count (k : Counter) : (s.count k).journal = s.journal := rfl
@[simp] theorem State.stream_count (k : Counter) (id : StreamId) : (s.count k).stream id = s.stream id := rfl
@[simp] theorem State.setup_count (k : Counter) : (s.count k).setup = s.setup := rfl
@[simp] theorem State.line_count (k : Counter) : (s.count k).line = s.line := rfl
@[simp] theorem State.clock_count (k : Counter) : (s.count k).clock = s.clock := rfl
@[simp] theorem State.roster_count (k : Counter) : (s.count k).roster = s.roster := rfl
@[simp] theorem State.entry_count (k : Counter) (i : Station) : (s.count k).entry i = s.entry i := rfl
@[simp] theorem State.seqEntry_count (k : Counter) (i : Station) : (s.count k).seqEntry i = s.seqEntry i := rfl
@[simp] theorem State.capture_count (k : Counter) : (s.count k).capture = s.capture := rfl
@[simp] theorem State.outbound_count (k : Counter) : (s.count k).outbound = s.outbound := rfl
@[simp] theorem State.sequencer_count (k : Counter) : (s.count k).sequencer = s.sequencer := rfl
@[simp] theorem State.urgent_count (k : Counter) : (s.count k).urgent = s.urgent := rfl
@[simp] theorem State.host_count (k : Counter) : (s.count k).host = s.host := rfl
@[simp] theorem State.pending_count (k : Counter) : (s.count k).pending = s.pending := rfl
@[simp] theorem State.receiveData_count (k : Counter) :
    (s.count k).receiveData = s.receiveData := rfl
@[simp] theorem State.inReset_count (k : Counter) :
    (s.count k).inReset = s.inReset := rfl

theorem saturate16_toNat (c : BitVec 16) : (saturate16 c).toNat = min 65535 (c.toNat + 1) := by
  unfold saturate16
  split
  · next h => subst h; rfl
  · next h =>
    have : c.toNat ≠ 65535 := fun e => h (BitVec.eq_of_toNat_eq e)
    rw [BitVec.toNat_add]
    have := c.isLt
    simp; omega

theorem saturate8_toNat (c : BitVec 8) : (saturate8 c).toNat = min 255 (c.toNat + 1) := by
  unfold saturate8
  split
  · next h => subst h; rfl
  · next h =>
    have : c.toNat ≠ 255 := fun e => h (BitVec.eq_of_toNat_eq e)
    rw [BitVec.toNat_add]
    have := c.isLt
    simp; omega

/-! ### Comparisons -/

theorem reached_iff (l i : Time) : reached l i = true ↔ (l - i).toNat < 2 ^ 47 := by
  simp [reached]

theorem Mode.onLine_iff (m : Mode) : m.onLine = true ↔ m = .listening ∨ m = .active ∨ m = .leaving := by
  cases m <;> simp [Mode.onLine]

theorem Mode.working_iff (m : Mode) : m.working = true ↔ m = .active ∨ m = .leaving := by
  cases m <;> simp [Mode.working]

theorem Mode.onLine_of_working (m : Mode) (h : m.working = true) : m.onLine = true := by
  cases m <;> simp_all [Mode.onLine, Mode.working]

end Sys2Proof.Machine
end

