-- ==== Sys2Proof/Laws/Journal.lean ====
section
/-! SUPPORT. What the operations of the merge pool, the streams and the acceptance unit leave alone, one lemma
per operation, and how release ends. -/

namespace Sys2Proof.Machine

variable {s t u : State}

/-! ### The relation `OnlyJournal` -/

theorem OnlyJournal.refl (s : State) : OnlyJournal s s := rfl

theorem OnlyJournal.trans (h : OnlyJournal s t) (k : OnlyJournal t u) : OnlyJournal s u := by
  unfold OnlyJournal at *
  rw [← h, ← k]

theorem OnlyJournal.pending (h : OnlyJournal s t) : t.pending = s.pending := by
  unfold OnlyJournal at h; rw [← h]
theorem OnlyJournal.setup (h : OnlyJournal s t) : t.setup = s.setup := by
  unfold OnlyJournal at h; rw [← h]
theorem OnlyJournal.line (h : OnlyJournal s t) : t.line = s.line := by
  unfold OnlyJournal at h; rw [← h]
theorem OnlyJournal.clock (h : OnlyJournal s t) : t.clock = s.clock := by
  unfold OnlyJournal at h; rw [← h]
theorem OnlyJournal.roster (h : OnlyJournal s t) : t.roster = s.roster := by
  unfold OnlyJournal at h; rw [← h]
theorem OnlyJournal.capture (h : OnlyJournal s t) : t.capture = s.capture := by
  unfold OnlyJournal at h; rw [← h]
theorem OnlyJournal.outbound (h : OnlyJournal s t) : t.outbound = s.outbound := by
  unfold OnlyJournal at h; rw [← h]
theorem OnlyJournal.sequencer (h : OnlyJournal s t) : t.sequencer = s.sequencer := by
  unfold OnlyJournal at h; rw [← h]
theorem OnlyJournal.urgent (h : OnlyJournal s t) : t.urgent = s.urgent := by
  unfold OnlyJournal at h; rw [← h]
theorem OnlyJournal.clockChanged (h : OnlyJournal s t) : t.clockChanged = s.clockChanged := by
  unfold OnlyJournal at h; rw [← h]
theorem OnlyJournal.host (h : OnlyJournal s t) : t.host = s.host := by
  unfold OnlyJournal at h; rw [← h]
theorem OnlyJournal.receiveData (h : OnlyJournal s t) : t.receiveData = s.receiveData := by
  unfold OnlyJournal at h; rw [← h]
theorem OnlyJournal.inReset (h : OnlyJournal s t) : t.inReset = s.inReset := by
  unfold OnlyJournal at h; rw [← h]
theorem OnlyJournal.entry (h : OnlyJournal s t) (i : Station) : t.entry i = s.entry i := by
  unfold State.entry; rw [h.roster]
theorem OnlyJournal.seqEntry (h : OnlyJournal s t) (i : Station) : t.seqEntry i = s.seqEntry i := by
  unfold State.seqEntry; rw [h.sequencer]
theorem OnlyJournal.mode (h : OnlyJournal s t) : t.mode = s.mode := congrArg Line.mode h.line
theorem OnlyJournal.own (h : OnlyJournal s t) : t.own = s.own := congrArg Setup.station h.setup

/-! ### The operations of the pool and the streams -/

variable (s)

theorem count_onlyJournal (k : Counter) : OnlyJournal s (s.count k) := rfl

theorem setStream_onlyJournal (id : StreamId) (x : JournalStream) : OnlyJournal s (s.setStream id x) := rfl

theorem setPool_onlyJournal (p : List PoolEntry) : OnlyJournal s (s.setPool p) := rfl

theorem setThrough_onlyJournal (t : Time) : OnlyJournal s (s.setThrough t) := rfl

theorem dropFor_onlyJournal (id : StreamId) : OnlyJournal s (s.dropFor id) := rfl

theorem restartIdleTimer_onlyJournal (id : StreamId) : OnlyJournal s (s.restartIdleTimer id) := by
  unfold State.restartIdleTimer; split <;> rfl

theorem appendTo_onlyJournal (id : StreamId) (item : Item) (late forced : Bool) :
    OnlyJournal s (s.appendTo id item late forced) :=
  (setStream_onlyJournal s id _).trans (restartIdleTimer_onlyJournal _ id)

theorem writeTo_onlyJournal (id : StreamId) (item : Item) (late forced : Bool) :
    OnlyJournal s (s.writeTo id item late forced) := by
  unfold State.writeTo
  split
  · exact dropFor_onlyJournal s id
  · exact appendTo_onlyJournal s id item late forced

theorem latchTo_onlyJournal (n : SlotNo) (item : Item) (forced : Bool) : OnlyJournal s (s.latchTo n item forced) := by
  unfold State.latchTo; split <;> rfl

theorem deliver_onlyJournal (e : PoolEntry) (late forced : Bool) : OnlyJournal s (s.deliver e late forced) := by
  unfold State.deliver
  split
  · exact writeTo_onlyJournal s _ _ _ _
  · exact (writeTo_onlyJournal s .a _ _ _).trans (writeTo_onlyJournal _ .b _ _ _)
  · exact latchTo_onlyJournal s _ _ _

theorem raiseThrough_onlyJournal (t : Time) : OnlyJournal s (s.raiseThrough t) := by
  unfold State.raiseThrough; split <;> rfl

theorem followHorizon_onlyJournal : OnlyJournal s s.followHorizon := by
  unfold State.followHorizon
  split
  · exact raiseThrough_onlyJournal s _
  · rfl

theorem releaseUpTo_onlyJournal (n : Nat) : ∀ s, OnlyJournal s (releaseUpTo n s) := by
  induction n with
  | zero => exact fun s => rfl
  | succ n ih =>
    intro s
    unfold releaseUpTo
    split
    · rfl
    · split
      · exact ((setPool_onlyJournal s _).trans (deliver_onlyJournal _ _ _ _)).trans (ih _)
      · rfl

theorem releaseReady_onlyJournal : OnlyJournal s s.releaseReady := by
  unfold State.releaseReady
  split
  · exact releaseUpTo_onlyJournal _ s
  · rfl

/-- R129, R131: settling changes the journal, the counters and loss-advanced alone. -/
theorem settle_onlyJournal : OnlyJournal s s.settle :=
  (followHorizon_onlyJournal s).trans (releaseReady_onlyJournal _)

theorem settle_of_not_working (h : s.mode.working = false) : s.settle = s := by
  simp [State.settle, State.followHorizon, State.releaseReady, h]

theorem releaseReady_of_not_working (h : s.mode.working = false) : s.releaseReady = s := by
  simp [State.releaseReady, h]

theorem takeLate_onlyJournal (e : PoolEntry) : OnlyJournal s (s.takeLate e) := by
  unfold State.takeLate
  split
  · exact deliver_onlyJournal s _ _ _
  · rfl
  · split
    · exact deliver_onlyJournal s _ _ _
    · rfl
  · split
    · exact deliver_onlyJournal s _ _ _
    · rfl

theorem insert_onlyJournal (e : PoolEntry) : OnlyJournal s (s.insert e) := rfl

theorem forceHead_onlyJournal : OnlyJournal s s.forceHead := by
  unfold State.forceHead
  split
  · rfl
  · exact ((((setPool_onlyJournal s _).trans (deliver_onlyJournal _ _ _ _)).trans
      (count_onlyJournal _ _)).trans (raiseThrough_onlyJournal _ _)).trans (releaseReady_onlyJournal _)

theorem countListeningDrop_onlyJournal (e : PoolEntry) : OnlyJournal s (s.countListeningDrop e) := by
  unfold State.countListeningDrop
  split
  · exact (count_onlyJournal s _).trans (dropFor_onlyJournal _ _)
  · exact ((count_onlyJournal s _).trans (dropFor_onlyJournal _ _)).trans (dropFor_onlyJournal _ _)
  · exact (count_onlyJournal s _).trans (count_onlyJournal _ _)

theorem listeningDrop_onlyJournal (e : PoolEntry) : OnlyJournal s (s.listeningDrop e) := by
  unfold State.listeningDrop
  split
  · rfl
  · exact (setPool_onlyJournal s _).trans (countListeningDrop_onlyJournal _ _)

/-- R136 to R143: an arrival changes the journal, the counters and loss-advanced alone. -/
theorem arrive_onlyJournal (e : PoolEntry) : OnlyJournal s (s.arrive e) := by
  unfold State.arrive
  split
  · rfl
  · split
    · rfl
    · rfl
    · split
      · exact listeningDrop_onlyJournal s e
      · rfl
    all_goals
      split
      · exact takeLate_onlyJournal s e
      · split
        · split
          · exact (forceHead_onlyJournal s).trans (takeLate_onlyJournal _ e)
          · exact (forceHead_onlyJournal s).trans (insert_onlyJournal _ e)
        · rfl

/-! ### The pool and R under delivery -/

@[simp] theorem pool_count (k : Counter) : (s.count k).journal.pool = s.journal.pool := rfl

theorem pool_restartIdleTimer (id : StreamId) :
    (s.restartIdleTimer id).journal.pool = s.journal.pool ∧
      (s.restartIdleTimer id).journal.through = s.journal.through := by
  unfold State.restartIdleTimer
  split
  · exact ⟨rfl, rfl⟩
  · exact ⟨Journal.pool_setStream _ _ _, Journal.through_setStream _ _ _⟩

theorem pool_writeTo (id : StreamId) (item : Item) (late forced : Bool) :
    (s.writeTo id item late forced).journal.pool = s.journal.pool ∧
      (s.writeTo id item late forced).journal.through = s.journal.through := by
  unfold State.writeTo
  split
  · exact ⟨Journal.pool_setStream _ _ _, Journal.through_setStream _ _ _⟩
  · exact ⟨(pool_restartIdleTimer _ id).1.trans (Journal.pool_setStream _ _ _),
      (pool_restartIdleTimer _ id).2.trans (Journal.through_setStream _ _ _)⟩

/-- A delivery leaves the pooled entries and R alone. -/
theorem pool_deliver (e : PoolEntry) (late forced : Bool) :
    (s.deliver e late forced).journal.pool = s.journal.pool ∧
      (s.deliver e late forced).journal.through = s.journal.through := by
  unfold State.deliver
  split
  · exact pool_writeTo s _ _ _ _
  · exact ⟨(pool_writeTo _ .b _ _ _).1.trans (pool_writeTo s .a _ _ _).1,
      (pool_writeTo _ .b _ _ _).2.trans (pool_writeTo s .a _ _ _).2⟩
  · unfold State.latchTo; split <;> exact ⟨rfl, rfl⟩

/-- R131: release takes entries off the head of the pool and leaves R alone. -/
theorem pool_releaseUpTo (n : Nat) :
    ∀ s, (∃ gone, s.journal.pool = gone ++ (releaseUpTo n s).journal.pool) ∧
      (releaseUpTo n s).journal.through = s.journal.through := by
  induction n with
  | zero => exact fun s => ⟨⟨[], rfl⟩, rfl⟩
  | succ n ih =>
    intro s
    unfold releaseUpTo
    split
    · exact ⟨⟨[], rfl⟩, rfl⟩
    · next e rest hp =>
      split
      · obtain ⟨⟨gone, hg⟩, ht⟩ := ih ((s.setPool rest).deliver e false false)
        have hd := pool_deliver (s.setPool rest) e false false
        refine ⟨⟨e :: gone, ?_⟩, ht.trans hd.2⟩
        rw [hp, List.cons_append, ← hg, hd.1]
        rfl
      · exact ⟨⟨[], rfl⟩, rfl⟩

theorem pool_releaseReady :
    (∃ gone, s.journal.pool = gone ++ s.releaseReady.journal.pool) ∧
      s.releaseReady.journal.through = s.journal.through := by
  unfold State.releaseReady
  split
  · exact pool_releaseUpTo _ s
  · exact ⟨⟨[], rfl⟩, rfl⟩

/-! ### The acceptance unit -/

variable {s}

theorem OnlyJournal.toPath (h : OnlyJournal s t) : OnlyJournalPath s t := by
  unfold OnlyJournalPath
  conv_rhs => rw [← h]
  rw [← h.urgent]

theorem OnlyJournalPath.refl (s : State) : OnlyJournalPath s s := rfl

theorem OnlyJournalPath.trans (h : OnlyJournalPath s t) (k : OnlyJournalPath t u) : OnlyJournalPath s u := by
  unfold OnlyJournalPath at *
  rw [← h, ← k]

theorem OnlyJournalPath.pending (h : OnlyJournalPath s t) : t.pending = s.pending := by
  unfold OnlyJournalPath at h; rw [← h]
theorem OnlyJournalPath.setup (h : OnlyJournalPath s t) : t.setup = s.setup := by
  unfold OnlyJournalPath at h; rw [← h]
theorem OnlyJournalPath.line (h : OnlyJournalPath s t) : t.line = s.line := by
  unfold OnlyJournalPath at h; rw [← h]
theorem OnlyJournalPath.clock (h : OnlyJournalPath s t) : t.clock = s.clock := by
  unfold OnlyJournalPath at h; rw [← h]
theorem OnlyJournalPath.roster (h : OnlyJournalPath s t) : t.roster = s.roster := by
  unfold OnlyJournalPath at h; rw [← h]
theorem OnlyJournalPath.capture (h : OnlyJournalPath s t) : t.capture = s.capture := by
  unfold OnlyJournalPath at h; rw [← h]
theorem OnlyJournalPath.outbound (h : OnlyJournalPath s t) : t.outbound = s.outbound := by
  unfold OnlyJournalPath at h; rw [← h]
theorem OnlyJournalPath.sequencer (h : OnlyJournalPath s t) : t.sequencer = s.sequencer := by
  unfold OnlyJournalPath at h; rw [← h]
theorem OnlyJournalPath.clockChanged (h : OnlyJournalPath s t) : t.clockChanged = s.clockChanged := by
  unfold OnlyJournalPath at h; rw [← h]
theorem OnlyJournalPath.host (h : OnlyJournalPath s t) : t.host = s.host := by
  unfold OnlyJournalPath at h; rw [← h]
theorem OnlyJournalPath.receiveData (h : OnlyJournalPath s t) : t.receiveData = s.receiveData := by
  unfold OnlyJournalPath at h; rw [← h]
theorem OnlyJournalPath.inReset (h : OnlyJournalPath s t) : t.inReset = s.inReset := by
  unfold OnlyJournalPath at h; rw [← h]
theorem OnlyJournalPath.entry (h : OnlyJournalPath s t) (i : Station) : t.entry i = s.entry i := by
  unfold State.entry; rw [h.roster]
theorem OnlyJournalPath.seqEntry (h : OnlyJournalPath s t) (i : Station) : t.seqEntry i = s.seqEntry i := by
  unfold State.seqEntry; rw [h.sequencer]
theorem OnlyJournalPath.mode (h : OnlyJournalPath s t) : t.mode = s.mode := congrArg Line.mode h.line
theorem OnlyJournalPath.own (h : OnlyJournalPath s t) : t.own = s.own := congrArg Setup.station h.setup

variable (s)

theorem writeNote_onlyJournalPath (n : Note) : OnlyJournalPath s (s.writeNote n) := by
  unfold State.writeNote; split <;> rfl

theorem route_onlyJournalPath (r : Record) (a : Action) (n : SlotNo) : OnlyJournalPath s (s.route r a n) := by
  unfold State.route
  split
  · exact (arrive_onlyJournal s _).toPath
  · exact (arrive_onlyJournal s _).toPath
  · exact (arrive_onlyJournal s _).toPath
  · rfl

/-- R116 to R119: taking a record into the journal path changes notes, journal, counters and loss-advanced
alone. -/
theorem accept_onlyJournalPath (r : Record) : OnlyJournalPath s (s.accept r) := by
  unfold State.accept
  split
  · split
    · exact (writeNote_onlyJournalPath s _).trans (route_onlyJournalPath _ _ _ _)
    · exact route_onlyJournalPath s _ _ _
  · exact route_onlyJournalPath s _ _ _

end Sys2Proof.Machine
end

