-- ==== Sys2Proof/Laws/PerInstr.lean ====
section
/-! SUPPORT. Statements made per command, about the command as syntax. -/

namespace Sys2Proof.Laws

/-- R169, Table 10-1: a command that only one mode answers is a host command, and its parameters carry no condition of
their own: the part takes every value and answers the ones it refuses. -/
def RestrictedCommands.Statement (i : Instr) : Prop :=
  Machine.onlyMode i ≠ none → Machine.isHostCommand i = true ∧ WellFormed i

theorem RestrictedCommands.fullReset (cs : ResetLine) :
    RestrictedCommands.Statement (.fullReset cs) := fun h => absurd rfl h
theorem RestrictedCommands.transactionStart :
    RestrictedCommands.Statement (.transactionStart) := fun h => absurd rfl h
theorem RestrictedCommands.transactionEnd :
    RestrictedCommands.Statement (.transactionEnd) := fun h => absurd rfl h
theorem RestrictedCommands.readStream (a b : Byte) :
    RestrictedCommands.Statement (.readStream a b) := fun h => absurd rfl h
theorem RestrictedCommands.readLatch (a : Byte) :
    RestrictedCommands.Statement (.readLatch a) := fun h => absurd rfl h
theorem RestrictedCommands.readUrgent :
    RestrictedCommands.Statement (.readUrgent) := fun h => absurd rfl h
theorem RestrictedCommands.readRoster (a : Byte) :
    RestrictedCommands.Statement (.readRoster a) := fun h => absurd rfl h
theorem RestrictedCommands.readChanges :
    RestrictedCommands.Statement (.readChanges) := fun h => absurd rfl h
theorem RestrictedCommands.readClock :
    RestrictedCommands.Statement (.readClock) := fun h => absurd rfl h
theorem RestrictedCommands.readCounters (a : Byte) :
    RestrictedCommands.Statement (.readCounters a) := fun h => absurd rfl h
theorem RestrictedCommands.clearCounters :
    RestrictedCommands.Statement (.clearCounters) := fun h => absurd rfl h
theorem RestrictedCommands.setupWrite (a b : Byte) (v : BitVec 32) :
    RestrictedCommands.Statement (.setupWrite a b v) := fun _ => ⟨rfl, rfl⟩
theorem RestrictedCommands.setupRead (a b : Byte) :
    RestrictedCommands.Statement (.setupRead a b) := fun _ => ⟨rfl, rfl⟩
theorem RestrictedCommands.commit :
    RestrictedCommands.Statement (.commit) := fun _ => ⟨rfl, rfl⟩
theorem RestrictedCommands.submit (a b c : Byte) (v : BitVec 16) :
    RestrictedCommands.Statement (.submit a b c v) := fun _ => ⟨rfl, rfl⟩
theorem RestrictedCommands.unmute :
    RestrictedCommands.Statement (.unmute) := fun h => absurd rfl h
theorem RestrictedCommands.leave :
    RestrictedCommands.Statement (.leave) := fun _ => ⟨rfl, rfl⟩
theorem RestrictedCommands.restart :
    RestrictedCommands.Statement (.restart) := fun h => absurd rfl h
theorem RestrictedCommands.badCommand (a : Byte) :
    RestrictedCommands.Statement (.badCommand a) := fun h => absurd rfl h
theorem RestrictedCommands.frameEnd (a : List Byte) (b : Bool) :
    RestrictedCommands.Statement (.frameEnd a b) := fun h => absurd rfl h
theorem RestrictedCommands.opportunity :
    RestrictedCommands.Statement (.opportunity) := fun h => absurd rfl h
theorem RestrictedCommands.completion :
    RestrictedCommands.Statement (.completion) := fun h => absurd rfl h
theorem RestrictedCommands.failedAttempt (a : Nat) :
    RestrictedCommands.Statement (.failedAttempt a) := fun h => absurd rfl h
theorem RestrictedCommands.emptyRotation :
    RestrictedCommands.Statement (.emptyRotation) := fun h => absurd rfl h
theorem RestrictedCommands.leaveTimerExpiry :
    RestrictedCommands.Statement (.leaveTimerExpiry) := fun h => absurd rfl h
theorem RestrictedCommands.agreementPoint :
    RestrictedCommands.Statement (.agreementPoint) := fun h => absurd rfl h
theorem RestrictedCommands.silenceTimerExpiry (i : Station) :
    RestrictedCommands.Statement (.silenceTimerExpiry i) := fun h => absurd rfl h
theorem RestrictedCommands.expelTimerExpiry (i : Station) :
    RestrictedCommands.Statement (.expelTimerExpiry i) := fun h => absurd rfl h
theorem RestrictedCommands.edge (i : InputNo) (l : Bool) :
    RestrictedCommands.Statement (.edge i l) := fun h => absurd rfl h
theorem RestrictedCommands.debounceExpiry (i : InputNo) :
    RestrictedCommands.Statement (.debounceExpiry i) := fun h => absurd rfl h
theorem RestrictedCommands.beaconTimerExpiry :
    RestrictedCommands.Statement (.beaconTimerExpiry) := fun h => absurd rfl h
theorem RestrictedCommands.gapDeadline (i : Station) (q : Seq) :
    RestrictedCommands.Statement (.gapDeadline i q) := fun h => absurd rfl h
theorem RestrictedCommands.orderedRelease :
    RestrictedCommands.Statement (.orderedRelease) := fun h => absurd rfl h
theorem RestrictedCommands.idleTimerExpiry (id : StreamId) :
    RestrictedCommands.Statement (.idleTimerExpiry id) := fun h => absurd rfl h
theorem RestrictedCommands.frameStart :
    RestrictedCommands.Statement (.frameStart) := fun h => absurd rfl h
theorem RestrictedCommands.localCountIncrement (x : BitVec 16) (r : Bool) :
    RestrictedCommands.Statement (.localCountIncrement x r) := fun h => absurd rfl h
theorem RestrictedCommands.lineReleaseAfterFramingError :
    RestrictedCommands.Statement (.lineReleaseAfterFramingError) := fun h => absurd rfl h

end Sys2Proof.Laws
end

