-- ==== Sys2Proof/Laws/Receiver.lean ====
section
/-! SUPPORT. What a microsecond of the line, and what a frame end, can change: one lemma per operation of the receiver. -/

namespace Sys2Proof.Machine

/-! ### The part of line access that no microsecond touches -/

/-- `m` is `n` but for the idle time with its marks, the receiver and the frame in flight. -/
def SameAccess (n m : Line) : Prop :=
  { m with
    idle := n.idle, stopLeft := n.stopLeft, rotations := n.rotations, opportunityFloor := n.opportunityFloor
    receiver := n.receiver, flight := n.flight } = n

variable {n m k : Line}

theorem SameAccess.refl (n : Line) : SameAccess n n := rfl

theorem SameAccess.trans (h : SameAccess n m) (g : SameAccess m k) : SameAccess n k := by
  unfold SameAccess at *
  rw [← h, ← g]

theorem SameAccess.mode (h : SameAccess n m) : m.mode = n.mode := by
  unfold SameAccess at h; rw [← h]
theorem SameAccess.lineState (h : SameAccess n m) : m.lineState = n.lineState := by
  unfold SameAccess at h; rw [← h]
theorem SameAccess.reference (h : SameAccess n m) : m.reference = n.reference := by
  unfold SameAccess at h; rw [← h]
theorem SameAccess.transmitter (h : SameAccess n m) : m.transmitter = n.transmitter := by
  unfold SameAccess at h; rw [← h]
theorem SameAccess.failures (h : SameAccess n m) : m.failures = n.failures := by
  unfold SameAccess at h; rw [← h]
theorem SameAccess.backoff (h : SameAccess n m) : m.backoff = n.backoff := by
  unfold SameAccess at h; rw [← h]
theorem SameAccess.goodRun (h : SameAccess n m) : m.goodRun = n.goodRun := by
  unfold SameAccess at h; rw [← h]
theorem SameAccess.observed (h : SameAccess n m) : m.observed = n.observed := by
  unfold SameAccess at h; rw [← h]
theorem SameAccess.leaveTimer (h : SameAccess n m) : m.leaveTimer = n.leaveTimer := by
  unfold SameAccess at h; rw [← h]

variable (n)

theorem restartIdle_sameAccess : SameAccess n n.restartIdle := rfl

theorem setPhase_sameAccess (p : Phase) : SameAccess n (n.setPhase p) := rfl

theorem rest_sameAccess : SameAccess n n.rest := by
  unfold Line.rest; split <;> rfl

theorem awaitRelease_sameAccess (rested : Nat) (level : Bool) : SameAccess n (n.awaitRelease rested level) := by
  unfold Line.awaitRelease; split <;> rfl

theorem takeRelease_sameAccess (rested : Nat) : SameAccess n (n.takeRelease rested) := rfl

theorem passIdle_sameAccess (level : Bool) : SameAccess n (n.passIdle level) := by
  unfold Line.passIdle
  split
  · split
    · exact rest_sameAccess n
    · rfl
  · exact rest_sameAccess n
  · rfl
  · exact awaitRelease_sameAccess n _ _

theorem noticeFall_sameAccess (fell : Bool) (f : Fall) : SameAccess n (n.noticeFall fell f) := by
  unfold Line.noticeFall
  split
  · split <;> rfl
  all_goals rfl

theorem confirmStart_sameAccess (f : Fall) : SameAccess n (n.confirmStart f) := by
  unfold Line.confirmStart; split <;> rfl

theorem completeByte_sameAccess (value : Byte) (stop : Bool) (bt : Nat) : SameAccess n (n.completeByte value stop bt) :=
  rfl

theorem sample_sameAccess (bt : Nat) (l : Time) (level : Bool) : SameAccess n (n.sample bt l level) := by
  unfold Line.sample
  split
  · rfl
  · rfl
  · split
    · split
      · rfl
      · exact confirmStart_sameAccess n _
    · rfl
  · split
    · split
      · rfl
      · exact completeByte_sameAccess n _ _ _
    · rfl

theorem followOwn_sameAccess (bt : Nat) (f : Fall) : SameAccess n (n.followOwn bt f) := by
  unfold Line.followOwn
  split
  · rfl
  · split <;> rfl

theorem compareEcho_sameAccess (bt : Nat) (l : Time) (level : Bool) : SameAccess n (n.compareEcho bt l level) := rfl

/-- A microsecond changes the idle time with its marks, the receiver and the frame in flight, and nothing else. -/
theorem passMicrosecond_sameAccess (bt : Nat) (st l : Time) (before level : Bool) :
    SameAccess n (n.passMicrosecond bt st l before level) := by
  unfold Line.passMicrosecond
  split
  · exact ((((noticeFall_sameAccess n _ _).trans (followOwn_sameAccess _ _ _)).trans
      (passIdle_sameAccess _ _)).trans (sample_sameAccess _ _ _ _)).trans (compareEcho_sameAccess _ _ _ _)
  · rfl

/-! ### The frame in flight over a microsecond -/

theorem flight_noticeFall (fell : Bool) (f : Fall) : (n.noticeFall fell f).flight = n.flight := by
  unfold Line.noticeFall
  split
  · split <;> rfl
  all_goals rfl

theorem flight_followOwn (bt : Nat) (f : Fall) : (n.followOwn bt f).flight = n.flight := by
  unfold Line.followOwn
  split
  · rfl
  · split <;> rfl

theorem flight_rest : n.rest.flight = n.flight := by
  unfold Line.rest; split <;> rfl

theorem flight_awaitRelease (rested : Nat) (level : Bool) : (n.awaitRelease rested level).flight = n.flight := by
  unfold Line.awaitRelease; split <;> rfl

theorem flight_passIdle (level : Bool) : (n.passIdle level).flight = n.flight := by
  unfold Line.passIdle
  split
  · split
    · exact flight_rest n
    · rfl
  · exact flight_rest n
  · rfl
  · exact flight_awaitRelease n _ _

theorem flight_sample (bt : Nat) (l : Time) (level : Bool) : (n.sample bt l level).flight = n.flight := by
  unfold Line.sample
  split
  · rfl
  · rfl
  · split
    · split
      · rfl
      · unfold Line.confirmStart; split <;> rfl
    · rfl
  · split
    · split <;> rfl
    · rfl

/-- The comparison leaves everything of the frame in flight alone but the mismatch, and a mismatch found stays. -/
theorem compare_keeps (f : Flight) (bt : Nat) (l : Time) (level : Bool) :
    { f.compare bt l level with mismatch := f.mismatch } = f ∧
      (f.mismatch ≠ none → f.compare bt l level = f) := by
  simp only [Flight.compare]
  by_cases h : f.mismatch = none
  · refine ⟨?_, fun g => absurd h g⟩
    split <;> rfl
  · simp [h]

/-- On the line, a microsecond compares the frame in flight, if there is one. -/
theorem flight_passMicrosecond (bt : Nat) (st l : Time) (before level : Bool) :
    (n.passMicrosecond bt st l before level).flight =
      if n.mode.onLine then n.flight.map fun f => f.compare bt l level else n.flight := by
  unfold Line.passMicrosecond
  split
  · show (Option.map _ (Line.flight _)) = _
    rw [flight_sample, flight_passIdle, flight_followOwn, flight_noticeFall]
  · rfl

/-! ### Frame ends -/

/-- R33: what a frame end does to BACKOFF. -/
theorem countFrameEnd_counts : FrameEndCounts n n.countFrameEnd where
  lowers h1 h2 h3 := by
    unfold Line.countFrameEnd
    rw [h1, h2]
    simp only [Bool.false_eq_true, if_false, if_true]
    rw [if_neg (by omega)]
    exact ⟨rfl, rfl⟩
  ends h1 h2 h3 := by
    unfold Line.countFrameEnd
    rw [h1, h2]
    simp only [Bool.false_eq_true, if_false, if_true]
    rw [if_pos h3]
    exact ⟨rfl, rfl⟩
  skips h := by
    unfold Line.countFrameEnd
    rw [h]
    exact ⟨rfl, rfl⟩
  others h := by
    unfold Line.countFrameEnd
    rw [if_neg h]
    split <;> exact ⟨rfl, rfl⟩
  once := by
    unfold Line.countFrameEnd
    split
    · rfl
    · next h => split <;> [split; skip] <;> simpa using h
  rest := by
    unfold Line.countFrameEnd
    split
    · rfl
    · split <;> [split; skip] <;> rfl

/-! ### The stamp of a fall (R42) -/

/-- Without an agreement point at this L a fall latches ST. -/
@[simp] theorem fallStamp_of_none (s : State) (h : s.clock.uncorrected = none) : s.fallStamp = s.st := by
  simp [State.fallStamp, h]

/-- With one, it latches ST before the correction or after it. -/
theorem fallStamp_of_some (s : State) (before : Time) (h : s.clock.uncorrected = some before) :
    s.fallStamp = before ∨ s.fallStamp = s.st := by
  simp only [State.fallStamp, h]; split <;> simp

end Sys2Proof.Machine
end

