-- ==== Sys2Proof/Laws/Sequencer.lean ====
section
/-! SUPPORT. What the operations of the sequencer and the roster change, one lemma per operation. -/

namespace Sys2Proof.Machine

variable {s t u : State}

/-! ### Updates under `OnlyJournal` -/

theorem OnlyJournal.setGaps (h : OnlyJournal s t) (gs : List Gap) : OnlyJournal (s.setGaps gs) (t.setGaps gs) := by
  unfold OnlyJournal at *; rw [← h]; rfl

theorem OnlyJournal.setSeqEntry (h : OnlyJournal s t) (i : Station) (e : Option SeqEntry) :
    OnlyJournal (s.setSeqEntry i e) (t.setSeqEntry i e) := by
  unfold OnlyJournal at *; rw [← h]; rfl

theorem OnlyJournal.setEntry (h : OnlyJournal s t) (i : Station) (e : RosterEntry) :
    OnlyJournal (s.setEntry i e) (t.setEntry i e) := by
  unfold OnlyJournal at *; rw [← h]; rfl

variable (s)

/-! ### Holes, closing and opening -/

theorem makeHole_onlyJournal (h : Hole) : OnlyJournal s (s.makeHole h) :=
  (count_onlyJournal s _).trans (arrive_onlyJournal _ _)

theorem foldl_makeHole_onlyJournal (reason : HoleReason) (gs : List Gap) :
    ∀ s : State, OnlyJournal s (gs.foldl (fun s g => s.makeHole (g.hole reason)) s) := by
  induction gs with
  | nil => exact fun s => rfl
  | cons g gs ih => exact fun s => (makeHole_onlyJournal s _).trans (ih _)

/-- R110: closing gaps takes them out of the table and makes holes. -/
theorem closeGaps_onlyJournal (p : Gap → Bool) (reason : HoleReason) :
    OnlyJournal (s.setGaps (s.sequencer.gaps.filter fun g => !p g)) (s.closeGaps p reason) :=
  foldl_makeHole_onlyJournal reason _ _

theorem tellRestart_onlyJournal (i : Station) (inc : Byte) :
    OnlyJournal ((s.setGaps (s.sequencer.gaps.filter fun g => !(g.station == i))).setSeqEntry i (some ⟨inc, none, 0⟩))
      (s.tellRestart i inc) :=
  (closeGaps_onlyJournal s _ _).setSeqEntry i _

theorem tellGone_onlyJournal (i : Station) :
    OnlyJournal ((s.setGaps (s.sequencer.gaps.filter fun g => !(g.station == i))).setSeqEntry i none)
      (s.tellGone i) :=
  (closeGaps_onlyJournal s _ _).setSeqEntry i _

/-- R97: a missing run opens a gap in its place in the table, or makes a hole and leaves the table alone. -/
theorem openRun_onlyJournal (i : Station) (e : SeqEntry) (first : Seq) (run : Nat) :
    OnlyJournal s (s.openRun i e first run) ∨
      s.sequencer.gaps.length < gapCapacity ∧
        s.openRun i e first run =
          s.setGaps (insertGap ⟨i, e.incarnation, first, run, e.watermark, 0, s.l, .waiting, true⟩ s.sequencer.gaps) := by
  unfold State.openRun
  split
  · exact .inl (makeHole_onlyJournal s _)
  · split
    · exact .inl (makeHole_onlyJournal s _)
    · next h => exact .inr ⟨by omega, rfl⟩

/-! ### What the sequencer can change at all -/

/-- `t` is `s` but for the sequencer, the notes, the journal, the counters and loss-advanced. -/
def OnlyRecovery (s t : State) : Prop :=
  { t with
    sequencer := s.sequencer, urgent := s.urgent, journal := s.journal, counters := s.counters,
    lossAdvanced := s.lossAdvanced } = s

variable {s}

theorem OnlyJournalPath.toRecovery (h : OnlyJournalPath s t) : OnlyRecovery s t := by
  unfold OnlyRecovery
  conv_rhs => rw [← h]
  rw [← h.sequencer]

theorem OnlyJournal.toRecovery (h : OnlyJournal s t) : OnlyRecovery s t := h.toPath.toRecovery

theorem OnlyRecovery.refl (s : State) : OnlyRecovery s s := rfl

theorem OnlyRecovery.trans (h : OnlyRecovery s t) (k : OnlyRecovery t u) : OnlyRecovery s u := by
  unfold OnlyRecovery at *
  rw [← h, ← k]

theorem OnlyRecovery.pending (h : OnlyRecovery s t) : t.pending = s.pending := by
  unfold OnlyRecovery at h; rw [← h]
theorem OnlyRecovery.setup (h : OnlyRecovery s t) : t.setup = s.setup := by
  unfold OnlyRecovery at h; rw [← h]
theorem OnlyRecovery.line (h : OnlyRecovery s t) : t.line = s.line := by
  unfold OnlyRecovery at h; rw [← h]
theorem OnlyRecovery.clock (h : OnlyRecovery s t) : t.clock = s.clock := by
  unfold OnlyRecovery at h; rw [← h]
theorem OnlyRecovery.roster (h : OnlyRecovery s t) : t.roster = s.roster := by
  unfold OnlyRecovery at h; rw [← h]
theorem OnlyRecovery.capture (h : OnlyRecovery s t) : t.capture = s.capture := by
  unfold OnlyRecovery at h; rw [← h]
theorem OnlyRecovery.outbound (h : OnlyRecovery s t) : t.outbound = s.outbound := by
  unfold OnlyRecovery at h; rw [← h]
theorem OnlyRecovery.clockChanged (h : OnlyRecovery s t) : t.clockChanged = s.clockChanged := by
  unfold OnlyRecovery at h; rw [← h]
theorem OnlyRecovery.host (h : OnlyRecovery s t) : t.host = s.host := by
  unfold OnlyRecovery at h; rw [← h]
theorem OnlyRecovery.receiveData (h : OnlyRecovery s t) : t.receiveData = s.receiveData := by
  unfold OnlyRecovery at h; rw [← h]
theorem OnlyRecovery.inReset (h : OnlyRecovery s t) : t.inReset = s.inReset := by
  unfold OnlyRecovery at h; rw [← h]
theorem OnlyRecovery.entry (h : OnlyRecovery s t) (i : Station) : t.entry i = s.entry i := by
  unfold State.entry; rw [h.roster]
theorem OnlyRecovery.mode (h : OnlyRecovery s t) : t.mode = s.mode := congrArg Line.mode h.line
theorem OnlyRecovery.own (h : OnlyRecovery s t) : t.own = s.own := congrArg Setup.station h.setup

variable (s)

theorem setGaps_onlyRecovery (gs : List Gap) : OnlyRecovery s (s.setGaps gs) := rfl

theorem setSeqEntry_onlyRecovery (i : Station) (e : Option SeqEntry) : OnlyRecovery s (s.setSeqEntry i e) := rfl

theorem closeGaps_onlyRecovery (p : Gap → Bool) (reason : HoleReason) : OnlyRecovery s (s.closeGaps p reason) :=
  (setGaps_onlyRecovery s _).trans (closeGaps_onlyJournal s p reason).toRecovery

theorem openRun_onlyRecovery (i : Station) (e : SeqEntry) (first : Seq) (run : Nat) :
    OnlyRecovery s (s.openRun i e first run) := by
  rcases openRun_onlyJournal s i e first run with h | ⟨-, h⟩
  · exact h.toRecovery
  · rw [h]; rfl

theorem advanceNext_onlyRecovery (i : Station) (ne : Seq) : OnlyRecovery s (s.advanceNext i ne) := by
  unfold State.advanceNext
  split
  · rfl
  · exact (setSeqEntry_onlyRecovery s _ _).trans (closeGaps_onlyRecovery _ _ _)

theorem accept_onlyRecovery (r : Record) : OnlyRecovery s (s.accept r) := (accept_onlyJournalPath s r).toRecovery

theorem takeOld_onlyRecovery (r : Record) : OnlyRecovery s (s.takeOld r) := by
  unfold State.takeOld
  split
  · rfl
  · split
    · rfl
    · exact (setGaps_onlyRecovery s _).trans (accept_onlyRecovery _ _)

/-- R95: sorting one record changes the sequencer, notes, journal, counters and loss-advanced alone. -/
theorem takeRecord_onlyRecovery (r : Record) : OnlyRecovery s (s.takeRecord r) := by
  unfold State.takeRecord
  split
  · rfl
  · split
    · rfl
    · split
      · exact (advanceNext_onlyRecovery s _ _).trans (accept_onlyRecovery _ _)
      · split
        · exact ((openRun_onlyRecovery s _ _ _ _).trans (advanceNext_onlyRecovery _ _ _)).trans
            (accept_onlyRecovery _ _)
        · exact takeOld_onlyRecovery s r

theorem takeRecords_onlyRecovery (i : Station) (inc : Byte) (ds : List EventData) :
    ∀ (s : State) (first : Seq), OnlyRecovery s (s.takeRecords i inc first ds) := by
  induction ds with
  | nil => exact fun s _ => rfl
  | cons d ds ih => exact fun s first => (takeRecord_onlyRecovery s _).trans (ih _ _)

theorem raiseWatermark_onlyRecovery (i : Station) (wm : Time) : OnlyRecovery s (s.raiseWatermark i wm) := by
  unfold State.raiseWatermark; split <;> rfl

theorem countTimes_onlyJournal (k : Counter) (n : Nat) : ∀ s : State, OnlyJournal s (s.countTimes k n) := by
  induction n with
  | zero => exact fun s => rfl
  | succ n ih => exact fun s => (count_onlyJournal s k).trans (ih _)

theorem suppress_onlyRecovery (i : Station) (inc : Byte) (rs : List SeqRange) :
    OnlyRecovery s (s.suppress i inc rs) :=
  (setGaps_onlyRecovery s _).trans (countTimes_onlyJournal _ _ _).toRecovery

theorem goneGap_onlyRecovery (first : Seq) (n : Nat) (g : Gap) : OnlyRecovery s (s.goneGap first n g) := by
  unfold State.goneGap
  split
  · rfl
  · dsimp only
    split
    · rfl
    · exact (setGaps_onlyRecovery s _).trans (makeHole_onlyJournal _ _).toRecovery

theorem foldl_goneGap_onlyRecovery (first : Seq) (n : Nat) (gs : List Gap) :
    ∀ s : State, OnlyRecovery s (gs.foldl (fun s g => s.goneGap first n g) s) := by
  induction gs with
  | nil => exact fun s => rfl
  | cons g gs ih => exact fun s => (goneGap_onlyRecovery s first n g).trans (ih _)

/-- R94: taking a frame changes the sequencer, notes, journal, counters and loss-advanced alone. -/
theorem sequencerTake_onlyRecovery (f : Frame) : OnlyRecovery s (s.sequencerTake f) := by
  unfold State.sequencerTake
  split
  · rfl
  · unfold State.takeBody
    split
    · exact ((setSeqEntry_onlyRecovery s _ _).trans (takeRecords_onlyRecovery _ _ _ _ _)).trans
        (raiseWatermark_onlyRecovery _ _ _)
    · split
      · rfl
      · refine OnlyRecovery.trans ?_ (raiseWatermark_onlyRecovery _ _ _)
        unfold State.trailing
        split
        · exact (openRun_onlyRecovery s _ _ _ _).trans (advanceNext_onlyRecovery _ _ _)
        · rfl
    · exact suppress_onlyRecovery s _ _ _
    · split
      · exact takeRecords_onlyRecovery _ _ _ _ _
      · rfl
    · split
      · exact foldl_goneGap_onlyRecovery _ _ _ _
      · rfl

theorem takeDeadline_onlyRecovery (g : Gap) : OnlyRecovery s (s.takeDeadline g) := by
  unfold State.takeDeadline
  split
  · rfl
  · exact (setGaps_onlyRecovery s _).trans (makeHole_onlyJournal _ _).toRecovery

/-! ### The presence of sequence entries -/

/-- R92: no sorting, request or hole makes a sequence entry appear or go, or changes its incarnation. -/
def SameFollowed (s t : State) : Prop :=
  ∀ i, (t.seqEntry i).map (·.incarnation) = (s.seqEntry i).map (·.incarnation)

variable {s}

theorem SameFollowed.trans (h : SameFollowed s t) (k : SameFollowed t u) : SameFollowed s u :=
  fun i => (k i).trans (h i)

theorem OnlyJournalPath.followed (h : OnlyJournalPath s t) : SameFollowed s t := fun i => by rw [h.seqEntry]

theorem OnlyJournal.followed (h : OnlyJournal s t) : SameFollowed s t := h.toPath.followed

variable (s)

theorem SameFollowed.refl : SameFollowed s s := fun _ => rfl

theorem setSeqEntry_followed (i : Station) (e e' : SeqEntry) (h : s.seqEntry i = some e)
    (k : e'.incarnation = e.incarnation) : SameFollowed s (s.setSeqEntry i (some e')) := by
  intro j
  rw [State.seqEntry_setSeqEntry]
  split
  · next hj => subst hj; simp [h, k]
  · rfl

theorem closeGaps_followed (p : Gap → Bool) (reason : HoleReason) : SameFollowed s (s.closeGaps p reason) :=
  SameFollowed.trans (t := s.setGaps _) (fun _ => rfl) (closeGaps_onlyJournal s p reason).followed

theorem openRun_followed (i : Station) (e : SeqEntry) (first : Seq) (run : Nat) :
    SameFollowed s (s.openRun i e first run) := by
  rcases openRun_onlyJournal s i e first run with h | ⟨-, h⟩
  · exact h.followed
  · rw [h]; exact fun _ => rfl

theorem advanceNext_followed (i : Station) (ne : Seq) : SameFollowed s (s.advanceNext i ne) := by
  unfold State.advanceNext
  split
  · exact SameFollowed.refl s
  · next e h => exact (setSeqEntry_followed s i e { e with next := some ne } h rfl).trans (closeGaps_followed _ _ _)

theorem takeOld_followed (r : Record) : SameFollowed s (s.takeOld r) := by
  unfold State.takeOld
  split
  · exact (count_onlyJournal s _).followed
  · split
    · exact SameFollowed.refl s
    · exact SameFollowed.trans (t := s.setGaps _) (fun _ => rfl) (accept_onlyJournalPath _ _).followed

theorem takeRecord_followed (r : Record) : SameFollowed s (s.takeRecord r) := by
  unfold State.takeRecord
  split
  · exact SameFollowed.refl s
  · split
    · exact SameFollowed.refl s
    · split
      · exact (advanceNext_followed s _ _).trans (accept_onlyJournalPath _ _).followed
      · split
        · exact ((openRun_followed s _ _ _ _).trans (advanceNext_followed _ _ _)).trans
            (accept_onlyJournalPath _ _).followed
        · exact takeOld_followed s r

theorem takeRecords_followed (i : Station) (inc : Byte) (ds : List EventData) :
    ∀ (s : State) (first : Seq), SameFollowed s (s.takeRecords i inc first ds) := by
  induction ds with
  | nil => exact fun s _ => SameFollowed.refl s
  | cons d ds ih => exact fun s first => (takeRecord_followed s _).trans (ih _ _)

theorem raiseWatermark_followed (i : Station) (wm : Time) : SameFollowed s (s.raiseWatermark i wm) := by
  unfold State.raiseWatermark
  split
  · exact SameFollowed.refl s
  · next e h => exact setSeqEntry_followed s i e _ h rfl

theorem goneGap_followed (first : Seq) (n : Nat) (g : Gap) : SameFollowed s (s.goneGap first n g) := by
  unfold State.goneGap
  split
  · exact SameFollowed.refl s
  · dsimp only
    split
    · exact SameFollowed.refl s
    · exact SameFollowed.trans (t := s.setGaps _) (fun _ => rfl) (makeHole_onlyJournal _ _).followed

theorem foldl_goneGap_followed (first : Seq) (n : Nat) (gs : List Gap) :
    ∀ s : State, SameFollowed s (gs.foldl (fun s g => s.goneGap first n g) s) := by
  induction gs with
  | nil => exact fun s => SameFollowed.refl s
  | cons g gs ih => exact fun s => (goneGap_followed s first n g).trans (ih _)

theorem start_incarnation (e : SeqEntry) (next : Seq) (wm : Time) : (e.start next wm).incarnation = e.incarnation := by
  unfold SeqEntry.start; split <;> rfl

theorem sequencerTake_followed (f : Frame) : SameFollowed s (s.sequencerTake f) := by
  unfold State.sequencerTake
  split
  · exact SameFollowed.refl s
  · next e he =>
    unfold State.takeBody
    split
    · exact ((setSeqEntry_followed s _ e _ he (start_incarnation e _ _)).trans
        (takeRecords_followed _ _ _ _ _)).trans (raiseWatermark_followed _ _ _)
    · split
      · exact setSeqEntry_followed s _ e _ he (start_incarnation e _ _)
      · refine SameFollowed.trans ?_ (raiseWatermark_followed _ _ _)
        unfold State.trailing
        split
        · exact (openRun_followed s _ _ _ _).trans (advanceNext_followed _ _ _)
        · exact SameFollowed.refl s
    · exact SameFollowed.trans (t := s.setGaps _) (fun _ => rfl) (countTimes_onlyJournal _ _ _).followed
    · split
      · exact takeRecords_followed _ _ _ _ _
      · exact SameFollowed.refl s
    · split
      · exact foldl_goneGap_followed _ _ _ _
      · exact SameFollowed.refl s

theorem takeDeadline_followed (g : Gap) : SameFollowed s (s.takeDeadline g) := by
  unfold State.takeDeadline
  split
  · exact fun _ => rfl
  · exact SameFollowed.trans (t := s.setGaps _) (fun _ => rfl) (makeHole_onlyJournal _ _).followed

end Sys2Proof.Machine
end

