-- ==== Sys2Proof/Tests/Slice0.lean ====
section
/-! SUPPORT. Tests of single commands, with values the spec works out or that follow from its tables by hand, and for
every statement with hypotheses a state and operands that meet them. -/

namespace Sys2Proof.Tests

open Sys2Proof.Machine

set_option maxRecDepth 20000

/-! ### Helpers -/

/-- The state a meaning answers. -/
def after (c : Instr) (s : State) : State :=
  match exec c s with
  | .next t => t
  | .fault _ => s
  | .refused _ => s

/-- A station in a mode, with the own entry as R64 has it, L and ST at 500,000, and a transaction open. -/
def station (m : Mode) : State :=
  let s : State :=
    { State.reset with
      setup := { Setup.initial with station := 4, incarnation := 2 }
      line := { Line.initial with mode := m }
      clock := { Clock.initial with l := 500000, st := 500000 }
      host := ⟨.opened, 0, []⟩ }
  if m.working then s.setEntry 4 ⟨.live, 2, 0, 0, none, false⟩ else s

/-- A record without value or loss. -/
def data (channel : Channel) (code : Byte) (ts : Time) : EventData := ⟨channel, code, ts, false, none, none⟩

/-- A record of a peer. -/
def rec (station : Station) (inc : Byte) (seq : Seq) (channel : Channel) (code : Byte) (ts : Time) : Record :=
  ⟨station, inc, seq, data channel code ts⟩

/-- A stream A entry. -/
def streamEntry (seq : Seq) : JournalEntry := ⟨.record (rec 9 3 seq 0 1 100), false, false, none⟩

/-- Peer 9 of incarnation 3 is LIVE, with NE and HW. -/
def withPeer (s : State) (ne : Seq) : State :=
  (s.setEntry 9 ⟨.live, 3, 0, 0, none, false⟩).setSeqEntry 9 (some ⟨3, some ne, 499000⟩)

/-- A frame of peer 9. -/
def frame (b : Body) : Frame := ⟨9, 3, true, 500000, b⟩

/-- A frame of these bytes is open, and the line stands 12 bt idle after it. -/
def atEnd (s : State) (bytes : List Byte) : State :=
  { s with
    line :=
      { s.line with lineState := .receiving, idle := 48, receiver := { Receiver.initial with bytes := bytes } } }

/-- The frame end of the frame the receiver holds. -/
def endNow (s : State) : State := after (.frameEnd s.line.receiver.bytes s.line.receiver.framingError) s

/-- An own frame begun at L = 400,000. -/
def ownFlight (b : Body) : Flight := ⟨⟨4, 2, true, 400000, b⟩, 400000, [], none⟩

/-- An own frame is in flight. -/
def flying (s : State) (b : Body) : State :=
  { s with line := { s.line with lineState := .transmitting, flight := some (ownFlight b) } }

/-- An own frame is in flight in which a bit read back different, after a number of failures. -/
def clashing (s : State) (b : Body) (bit failures : Nat) : State :=
  { s with
    line :=
      { s.line with
        lineState := .transmitting, failures := failures, flight := some { ownFlight b with mismatch := some bit } } }

/-- A byte under way whose start bit began after so long an idle time. -/
def reading (idle : Nat) : Receiver := ⟨.reading ⟨499990, 499991, idle⟩ 0 0, [], false, 0, 0⟩

/-- A receiver that does something. -/
def receiving (s : State) (p : Phase) : State := { s with line := s.line.setPhase p }

/-- A gap of peer 9. -/
def gap (first : Seq) (count : Nat) (due : Bool) : Gap := ⟨9, 3, first, count, 490000, 0, 500000, .waiting, due⟩

/-! ### Syntax: checks on operands -/

/-- R168: a byte Table 1-11 lists is no BAD_COMMAND. -/
theorem test_wellFormed_refuses_listed_byte : wellFormed (.badCommand 0x01) = false := by decide

/-- R3: no frame has a bit 1,100. -/
theorem test_wellFormed_refuses_bit_beyond_frame : wellFormed (.failedAttempt 1100) = false := by decide

theorem test_wellFormed_takes_boundaries :
    wellFormed (.badCommand 0x09) = true ∧ wellFormed (.badCommand 0x24) = true ∧ wellFormed (.failedAttempt 1099) = true := by
  decide

/-- Table 1-11: SUBMIT of channel 16, code 1, flags 1, value 0x1234, least significant byte first. -/
theorem test_bytes_of_submit :
    hostCommand [0x20, 16, 1, 1, 0x34, 0x12] = some (.submit 16 1 1 0x1234) := by decide

/-- Table 1-11: SETUP-WRITE of item 4, value 100; one byte short of it names nothing. -/
theorem test_bytes_of_setupWrite :
    hostCommand [0x10, 4, 0, 100, 0, 0, 0] = some (.setupWrite 4 0 100) ∧
      hostCommand [0x10, 4, 0, 100, 0, 0] = none := by decide

/-- R168: a byte the table does not list names BAD_COMMAND at once. -/
theorem test_bytes_of_badCommand : hostCommand [0x09, 7] = some (.badCommand 0x09) := by decide

/-- The table gives no row any bits. -/
theorem test_no_word_spells_a_command : decodeTableWord 8 1 = none := by decide

/-! ### Frames (01) -/

/-- R5, the check value of the string 123456789. -/
theorem test_crc_check_value :
    crcOf [0x31, 0x32, 0x33, 0x34, 0x35, 0x36, 0x37, 0x38, 0x39] = 0x6F91 := by decide

/-- 11, frame lengths. -/
theorem test_beacon_has_21_bytes : (frame (.beacon 500050 201 false)).toBytes.length = 21 := by decide

theorem test_event_of_three_records_has_46_bytes :
    (frame (.event 0 0 [data 0 1 0, data 0 1 0, data 0 1 0])).toBytes.length = 46 := by decide

/-! ### Resets and transactions (10) -/

/-- Table of the status byte through a short life, first row. -/
theorem test_fullReset_status : (after (.fullReset (.released false)) (station .active)).statusByte = 0x00 := by decide

/-- R186. -/
theorem test_fullReset_under_chip_select : (after (.fullReset (.released true)) (station .active)).host.stage = .ignored := by
  decide

/-- R185, R165: while RST is held, L stands at 0, the port ignores chip select, and the data output is not driven once
chip select is inactive. -/
theorem test_fullReset_holds :
    (after (.localCountIncrement 0 true) (after (.fullReset .held) (station .active))).l = 0 ∧
      (after .transactionStart (after (.fullReset .held) State.reset)).host.stage = .ignored ∧
      (after .transactionEnd (after (.fullReset .held) (station .active))).dataOutput 0 = none := by decide

/-- R165 to R167: READ-CHANGES in SETUP clocks out the status byte, the result and four bytes of 0. -/
theorem test_transaction_bytes :
    (List.range 8).map (State.reset.clockedOut [0x05, 0, 0, 0, 0, 0, 0, 0]) = [0, 0, 0, 0, 0, 0, 0, 0] ∧
      (List.range 3).map (State.reset.clockedOut [0x20, 16, 1]) = [0, 0, 0] ∧
      (State.reset.transact [0x10, 4, 0, 100, 0, 0, 0]).setup.bitTime = 100 := by decide

/-- 10, the third and the sixteenth-failure rows: ROSTER in LISTENING, and FAULT while MUTE. -/
theorem test_transactionStart_latches_roster_cause :
    (after .transactionStart
      { (station .listening).setEntry 3 ⟨.joining, 1, 0, 0, none, true⟩ with
        host := HostPort.initial }).host.status = 0x0E := by decide

/-- R176: ATTN is driven low when active and high when inactive. -/
theorem test_attnLevel :
    ((station .listening).setEntry 3 ⟨.joining, 1, 0, 0, none, true⟩).attnLevel = false ∧
      (station .listening).attnLevel = true := by decide

/-- R165, 10: the status byte 0x0E leaves the data output most significant bit first; outside a transaction the output is
not driven. -/
theorem test_dataOutput_of_status :
    (List.range 8).map
        (({ (station .listening).setEntry 3 ⟨.joining, 1, 0, 0, none, true⟩ with
          host := HostPort.initial } : State).serialOutput [0x05]) =
      [false, false, false, false, true, true, true, false].map some ∧
      State.reset.dataOutput 0 = none ∧ State.reset.serialOutput [0x09, 0, 0] 13 = some true := by decide

theorem test_transactionStart_latches_mute :
    (after .transactionStart
      { station .active with
        line := { (station .active).line with transmitter := .mute }
        host := HostPort.initial }).host.status = 0x51 := by decide

/-- R167. -/
theorem test_transactionEnd_loses_reply :
    (after .transactionEnd (after .readChanges (station .active))).host.reply = [] := by decide

/-! ### Host commands (10) -/

/-- 10, one READ-STREAM transaction: count 2, entries of 13 and 15 bytes. -/
theorem test_readStream_reply_length :
    (after (.readStream 0 2)
      ((station .listening).setStream .a
        ⟨[streamEntry 1, ⟨.record ⟨9, 3, 2, ⟨0, 1, 100, false, some 7, none⟩⟩, false, false, none⟩], 0, false,
          none⟩)).host.reply.length = 1 + 1 + 13 + 15 := by decide

/-- 09, the stream example: the read at 201.5 ms leaves 14 entries; here the read of 2 of 3 leaves 1. -/
theorem test_readStream_leaves_rest :
    ((after (.readStream 0 2)
      ((station .listening).setStream .a
        ⟨[streamEntry 1, streamEntry 2, streamEntry 3], 3, true, none⟩)).stream .a).entries = [streamEntry 3] := by
  decide

/-- 09, a breaker position in a latch slot: the second read has flag 0. -/
theorem test_readLatch_twice :
    (after (.readLatch 4)
      { after (.readLatch 4)
          ((station .active).latchTo 4 (.record (rec 5 6 88 3 2 700120)) false) with
        host := ⟨.opened, 0, []⟩ }).host.reply.take 2 = [0, 0] := by decide

/-- 07, a burst of trip notes: the read that empties the queue clears overflow. -/
theorem test_readUrgent_clears_overflow :
    (after .readUrgent { station .active with urgent := ⟨[⟨21, 0, 1, 5, 9, .toA, 0⟩], true⟩ }).urgent = ⟨[], false⟩ := by
  decide

/-- R68: the own entry in LISTENING reports ABSENT; 24 data bytes. -/
theorem test_readRoster_own : (after (.readRoster 4) (station .listening)).host.reply.take 2 = [0, 0] := by decide

/-- 04, the example entry: bit 9 is 0x00000200. -/
theorem test_readChanges_bit9 :
    (after .readChanges ((station .active).setEntry 9 ⟨.live, 3, 0, 0, none, true⟩)).host.reply = [0, 0, 2, 0, 0] := by
  decide

/-- R182: state, ST, D, m. -/
theorem test_readClock_reply :
    (after .readClock
      { station .active with
        clock := { (station .active).clock with state := .agreed, debt := 3, lastM := -3 } }).host.reply =
      [0, 2, 0x20, 0xA1, 0x07, 0, 0, 0, 3, 0, 0xFD, 0xFF, 0xFF, 0xFF, 0xFF, 0xFF] := by decide

/-- R180: seven loss counters of two bytes. -/
theorem test_readCounters_loss :
    (after (.readCounters 1) ((station .active).count .captureLost)).host.reply =
      [0, 1, 0, 0, 0, 0, 0, 0, 0, 0, 0, 0, 0, 0, 0] := by decide

theorem test_clearCounters_keeps_lossAdvanced :
    (after .clearCounters ((station .active).count .captureLost)).lossAdvanced = true := by decide

/-- Table 10-2: bit time 101 is refused; rule 3's B may be 106,495 (07). -/
theorem test_setupWrite_refuses_bitTime_101 : (after (.setupWrite 4 0 101) (station .setup)).host.reply = [2] := by
  decide

theorem test_setupWrite_rule_operand :
    (after (.setupWrite 67 2 106495) (station .setup)).setup.rules[3].b = 106495 := by decide

/-- Table 10-2: the default silence timeout is 200. -/
theorem test_setupRead_silence : (after (.setupRead 8 0) (station .setup)).host.reply = [0, 200, 0, 0, 0] := by decide

/-- 10, a COMMIT refused: beacon 100 and silence 150 fail check 1. -/
theorem test_commit_invalid_8 :
    (after .commit
      { station .setup with
        setup := { Setup.initial with beaconInterval := 100, silenceTimeout := 150 } }).host.reply = [6, 8] := by
  decide

/-- 10, a COMMIT refused: rule 3 RANGE 98,304 to 90,111 fails check 4. -/
theorem test_commit_invalid_67 :
    (after .commit
      { station .setup with
        setup :=
          { Setup.initial with
            rules := Setup.initial.rules.set 3 ⟨.range, 98304, 90111, .toA, 0, false⟩ } }).host.reply =
      [6, 67] := by decide

/-- 05, watermarks: a SUBMIT at ST with next sequence 40 puts 40 into OUTQ. -/
theorem test_submit_numbers_record :
    ((after (.submit 16 1 0 0)
      { station .active with
        outbound := { Outbound.initial with nextSeq := 40 } }).outbound.outq.map (·.seq)) = [40] := by decide

theorem test_submit_refuses_input_channel : (after (.submit 15 1 0 0) (station .active)).host.reply = [2] := by decide

theorem test_unmute :
    (after .unmute
      { station .active with
        line := { (station .active).line with transmitter := .mute, failures := 16 } }).statusByte = 0x10 := by
  decide

/-- R146: the pending state that held the horizon ends, and the pool changes only with the release after LEAVE. -/
theorem test_leave_keeps_pool :
    let s := ((station .active).setPendingEdge 0 (some ⟨400000, 400000, true, true⟩)).setPool
      [⟨.record (rec 9 3 2 0 1 450000), .stream .a⟩]
    (after .leave s).journal = s.journal ∧ (after .orderedRelease (after .leave s)).journal.pool = [] := by decide

/-- R22: twice the silence timeout of 200 ms after L = 500,000. -/
theorem test_leave_timer : (after .leave (station .active)).line.leaveTimer = some 900000 := by decide

/-- R184: ST takes the value of L. -/
theorem test_restart_clock :
    (after .restart { station .active with clock := { Clock.initial with l := 7, st := 9 } }).clock =
      { Clock.initial with l := 7, st := 7 } := by decide

theorem test_badCommand : (after (.badCommand 0x09) (station .stopped)).host.reply = [5] := by decide

/-! ### Events of the line (02) -/

/-- The line over the levels given, one microsecond each at bt = 1, before which it was idle. -/
def hearing (s : State) (levels : List Bool) : Line :=
  s.line.passRun 1 s.l true (levels.map fun level => (s.l, level))

/-- R1: a start bit, the bits of 0xA7 from the least significant one, and a stop bit; the byte belongs to the open
frame. -/
theorem test_receiver_reads_sync :
    (hearing (atEnd (station .listening) [])
      [false, true, true, true, false, false, true, false, true, true]).receiver.bytes = [0xA7] := by decide

/-- R1: a stop bit that reads active is a framing error, and nothing is read until the line is released. -/
theorem test_receiver_framing_error :
    (hearing (atEnd (station .listening) [])
      [false, true, true, true, false, false, true, false, true, false, true]).receiver =
      ⟨.held 1, [0xA7], true, 0, 0⟩ := by decide

/-- R1, R26: at bt = 4 a pulse of two microseconds begins no byte and leaves the idle time running. -/
theorem test_receiver_rejects_glitch :
    (((station .listening).line.passRun 4 9 true [(9, false), (10, false), (11, true), (12, true)]).idle,
      ((station .listening).line.passRun 4 9 true [(9, false), (10, false), (11, true), (12, true)]).receiver.phase) =
      (4, .searching) := by decide

/-- 01, R2: at bt = 4 the idle run of 12 bt is 48 µs. -/
theorem test_frameStart_after_12_bits :
    (after .frameStart
      { station .listening with
        line := { (station .listening).line with receiver := reading 48 } }).line.lineState = .receiving := by decide

theorem test_frameStart_before_12_bits :
    (after .frameStart
      { station .listening with
        line := { (station .listening).line with receiver := reading 47 } }).line.lineState = .idle := by decide

/-- R56, R27: a BEACON of an unknown peer makes it JOINING and fixes the reference. -/
theorem test_frameEnd_joins :
    ((endNow (atEnd (station .listening) (frame (.beacon 500000 7 false)).toBytes)).entry 9).state =
      .joining := by decide

/-- R11: a framing error makes the frame CRC-FAILED. -/
theorem test_frameEnd_framing_error :
    (endNow
      { atEnd (station .listening) [] with
        line :=
          { (atEnd (station .listening) []).line with
            receiver := ⟨.searching, (frame (.beacon 500000 7 false)).toBytes, true, 0, 0⟩ } }).counters.framesBad =
      1 := by decide

/-- 02, a double start: station 2 with reference 9 ranks 24 and its first opportunity is at 208 bt. -/
theorem test_opportunity_rank :
    ({ State.reset with
      setup := { Setup.initial with station := 2 }
      line := { Line.initial with reference := some 9 } } : State).firstOpportunity = 208 * 4 := by decide

/-- R29, R82: an OUTQ record starts an EVENT, whose watermark is ST. -/
theorem test_opportunity_starts_event :
    (after .opportunity
      { station .active with
        line := { (station .active).line with idle := 192 }
        outbound :=
          { Outbound.initial with
            nextSeq := 1, outq := [rec 4 2 0 16 1 400000] } }).line.flight.map (·.frame.body) =
      some (.event 500000 0 [data 16 1 400000]) := by decide

/-- 05, a request half outside history, step 4: GONE of 7 leaves (212, 13) of (205, 20). -/
theorem test_completion_shrinks_job :
    (after .completion
      { flying (station .active) (.repeatGone 205 7) with
        outbound := { Outbound.initial with jobs := [⟨205, 20⟩, ⟨330, 10⟩] } }).outbound.jobs =
      [⟨212, 13⟩, ⟨330, 10⟩] := by decide

/-- 02, a double start: one failure gives BACKOFF with count 1; bit 1 of byte 2 is bit 22 of the frame. -/
theorem test_failedAttempt_backs_off :
    (after (.failedAttempt 22) (clashing (station .active) (.beacon 0 0 false) 22 0)).line.backoff = 1 := by decide

/-- R34: the sixteenth failure. -/
theorem test_failedAttempt_mutes :
    (after (.failedAttempt 22) (clashing (station .active) (.beacon 0 0 false) 22 15)).line.transmitter = .mute := by decide

/-- R2, R26: at bt = 1 a byte with a framing error, the release after it, and a fall when the line has been back at the
idle level for `n` µs. -/
def fallAfterRelease (n : Nat) : State :=
  let s : State := { station .listening with setup := { Setup.initial with bitTime := 1 } }
  let s : State :=
    after .lineReleaseAfterFramingError
      { s with line := hearing s [false, true, true, true, false, false, true, false, true, false, true] }
  { s with line := hearing s (List.replicate (n - 1) true ++ [false]) }

/-- R2: the idle run restarts at the release, so a start bit 12 bt after it opens a frame, and one 11 bt after it none. -/
theorem test_lineRelease_restarts_idle :
    (after .frameStart (fallAfterRelease 12)).line.lineState = .receiving ∧
      (after .frameStart (fallAfterRelease 11)).line.lineState = .idle := by decide

/-! ### Events of the clock, the roster and the inputs (03, 04, 05) -/

/-- 03, an agreement point in ACTIVE: m = −3. -/
theorem test_midpoint_of_example : midpoint [38, -12, 6, -110] = some (-3) := by decide

/-- R47, 11: the first point of a station alone: alone count 1, and ACTIVE once the line is observed. -/
theorem test_agreementPoint_alone :
    (after .agreementPoint
      { station .listening with
        clock := { (station .listening).clock with nextPoint := some 500000 }
        line := { (station .listening).line with observed := true } }).mode = .active := by decide

/-- R40: with D above 0 an odd L withholds the increment of ST. -/
theorem test_localCountIncrement_withholds :
    (after (.localCountIncrement 0 true)
      { station .active with clock := { (station .active).clock with debt := 3 } }).clock.st = 500000 := by decide

/-- R58: 200 ms after heard-at. -/
theorem test_silenceTimerExpiry :
    ((after (.silenceTimerExpiry 9)
      ((station .active).setEntry 9 ⟨.live, 3, 0, 300000, none, false⟩)).entry 9).state = .silent := by decide

theorem test_silenceTimerExpiry_early :
    ((after (.silenceTimerExpiry 9)
      ((station .active).setEntry 9 ⟨.live, 3, 0, 300001, none, false⟩)).entry 9).state = .live := by decide

theorem test_expelTimerExpiry :
    (after (.expelTimerExpiry 9)
      { (withPeer (station .active) 7).setEntry 9 ⟨.silent, 3, 0, 500000, none, false⟩ with
        clock := { Clock.initial with l := 10500000, st := 10500000 } }).seqEntry 9 = none := by decide

/-- 05: input 2 rises with RISE selected. -/
theorem test_edge_starts_pending :
    ((after (.edge 2 true)
      { station .active with
        setup := { (station .active).setup with edges := Setup.initial.edges.set 2 .rise }
        capture := { Capture.initial with sampled := true } }).pendingEdge 2).isSome = true := by decide

/-- R73, R74: 1,000 µs after the edge the capture is a record with code 1. -/
theorem test_debounceExpiry :
    ((after (.debounceExpiry 2)
      ((station .active).setPendingEdge 2 (some ⟨499000, 499000, true, true⟩))).outbound.outq.map (·.data.code)) =
      [1] := by decide

theorem test_beaconTimerExpiry :
    (after .beaconTimerExpiry
      { station .active with
        outbound := { Outbound.initial with beaconTimer := some 500000 } }).outbound.beaconDue = true := by decide

/-! ### Recovery, acceptance and journals (06 to 09) -/

/-- R105: a deadline with every try used closes the gap as a NO-ANSWER hole. -/
theorem test_gapDeadline_closes :
    (after (.gapDeadline 9 120)
      ((withPeer (station .active) 128).setGaps [{ gap 120 8 false with tries := 3 }])).counters.holesCreated = 1 := by
  decide

/-- 07, a rule table at work: station 7, channel 0, code 1. -/
theorem test_key_of_example : (rec 7 0 0 0 1 0).key = 57345 := by decide

theorem test_masked_rule_of_example : (⟨.masked, 3840, 7936, .discard, 0, false⟩ : Rule).matchesKey 168232 = false := by
  decide

/-- R131: a record behind the horizon leaves the pool for stream A. -/
theorem test_orderedRelease :
    ((after .orderedRelease
      ((station .active).setPool [⟨.record (rec 9 3 1 0 1 499999), .stream .a⟩])).stream .a).entries.length = 1 := by
  decide

/-- A stream whose idle timer expires at the instant that makes the release of the pooled record due. -/
def expiring : State :=
  let s := (station .active).setStream .a ⟨[streamEntry 1], 0, false, some 500001⟩
  after (.localCountIncrement 0 true) (s.setPool [⟨.record (rec 9 3 2 0 1 500000), .stream .a⟩])

/-- R156: the expiry and the write at the same L occur in either order. -/
theorem test_idleTimerExpiry_and_write :
    ((after .orderedRelease (after (.idleTimerExpiry .a) expiring)).stream .a).timeout = true ∧
      ((after (.idleTimerExpiry .a) (after .orderedRelease expiring)).stream .a).timeout = false ∧
      ((after .orderedRelease (after (.idleTimerExpiry .a) expiring)).stream .a).entries.length = 2 := by decide

/-- 09, the stream example at 212.0: the timer expires with entries held. -/
theorem test_idleTimerExpiry :
    ((after (.idleTimerExpiry .a)
      ((station .active).setStream .a ⟨[streamEntry 1], 0, false, some 500000⟩)).stream .a).timeout = true := by decide

/-! ### Witnesses: for each statement with hypotheses, states and operands that meet them, clause by clause and at the
boundary values -/

/-- A station held in reset. -/
def held : State := { State.reset with inReset := true }

theorem witness_TransactionFraming :
    State.reset.host.stage = .idle ∧ State.reset.inReset = false ∧ (station .setup).host.stage ≠ .idle ∧
      held.host.stage = .idle ∧ held.inReset = true ∧ isHostCommand .readClock = true ∧ State.reset.host.stage ≠ .opened := by decide

theorem witness_StatusByteReportsState :
    State.reset.host.stage = .idle ∧ State.reset.inReset = false ∧ (1 : Nat) ≤ 7 := by decide

theorem witness_CausesAndAttn :
    ((station .listening).setEntry 3 ⟨.joining, 1, 0, 0, none, true⟩).attn = true ∧ (station .listening).attn = false := by
  decide

/-- The first and the last item of Table 10-2 that FULL_RESET sets, and a command that is ignored while RST is held. -/
theorem witness_FullResetState :
    addressedItem 1 0 = some .station ∧ addressedItem 111 5 = some (.rule 47) ∧ State.reset.host.stage = .idle ∧
      Instr.readClock ≠ .transactionStart ∧ Instr.readClock ≠ .transactionEnd ∧ ∀ r, Instr.readClock ≠ .fullReset r := by
  refine ⟨by decide, by decide, by decide, by decide, by decide, fun _ => by simp⟩

/-- An own frame is in flight and its last stop bit has ended. -/
abbrev Completes (s : State) (f : Flight) : Prop :=
  s.line.flight = some f ∧ f.mismatch = none ∧ 10 * f.frame.toBytes.length * s.setup.bitTime ≤ (s.l - f.startL).toNat

/-- A station in LEAVING whose leave timer expires now. -/
def lastMoment : State := { station .leaving with line := { (station .leaving).line with leaveTimer := some 500000 } }

theorem witness_SessionEnds :
    (station .active).host.stage = .opened ∧ Completes (flying (station .leaving) (.beacon 1 0 true)) (ownFlight (.beacon 1 0 true)) ∧
      (ownFlight (.beacon 1 0 true)).frame.body = .beacon 1 0 true ∧ lastMoment.line.leaveTimer = some 500000 ∧
      lastMoment.mode = .leaving ∧ (lastMoment.l - 500000).toNat < 2 ^ 47 := by decide

/-- A station whose stream B holds an entry. -/
def oneEntry (m : Mode) : State := (station m).setStream .b ⟨[streamEntry 1], 0, true, none⟩

theorem witness_ReadStreamTakesOldest :
    (station .setup).host.stage = .opened ∧ 1 < (2 : Byte).toNat ∧ (1 : Byte).toNat ≤ 1 ∧ (0 : Byte).toNat = 0 ∧
      64 < (65 : Byte).toNat ∧ ((station .setup).stream .a).entries = [] ∧ (station .setup).mode = .setup ∧
      (oneEntry .listening).host.stage = .opened ∧ 1 ≤ (64 : Byte).toNat ∧ (64 : Byte).toNat ≤ 64 ∧
      1 ≤ (1 : Byte).toNat ∧ ((oneEntry .listening).stream .b).entries ≠ [] ∧
      (oneEntry .listening).mode.working = false ∧ ((oneEntry .active).stream .b).entries ≠ [] := by decide

theorem witness_ReadStreamTakesOldest_timer :
    ∃ timer : Option Time,
      timer =
        if (station .active).mode = Mode.setup then ((station .active).stream .b).idleTimer
        else some ((station .active).l + millis ((station .active).setup.stream .b).idleTimeout) := ⟨_, rfl⟩

/-- The SETUP clauses of the reading commands: a station in SETUP holds nothing of a session. -/
theorem witness_ClearInSetup : (station .setup).ClearInSetup ∧ (station .setup).mode = .setup :=
  ⟨fun _ => ⟨rfl, rfl, rfl, rfl, rfl, rfl, rfl, rfl, rfl, rfl, rfl⟩, rfl⟩

theorem witness_FlagsHold : (station .active).FlagsHold := ⟨by decide, by decide, by decide⟩

theorem witness_LatchAndNoteReads :
    (station .active).host.stage = .opened ∧ 15 < (16 : Byte).toNat ∧ (15 : SlotNo).val = (15 : Byte).toNat ∧
      (station .active).journal.latches[15] = none ∧
      ((station .active).latchTo 15 (.record (rec 5 6 88 3 2 7)) false).journal.latches[15] =
        some ⟨rec 5 6 88 3 2 7, false, true⟩ ∧
      ({ station .active with urgent := ⟨[⟨21, 0, 1, 5, 9, .toA, 0⟩], true⟩ } : State).urgent.notes =
        ⟨21, 0, 1, 5, 9, .toA, 0⟩ :: [] ∧
      (station .active).urgent.notes = [] := by decide

theorem witness_ReadRosterFields :
    (station .active).host.stage = .opened ∧ 31 < (32 : Byte).toNat ∧ (31 : Station).val = (31 : Byte).toNat ∧
      (31 : Station) ≠ (station .active).own ∧ (4 : Station).val = (4 : Byte).toNat ∧
      (4 : Station) = (station .active).own := by decide

/-- An open transaction: ChangesAndClockReads, ReadCountersReply, CountersAdvanceAndClear. -/
theorem witness_opened : (station .listening).host.stage = .opened ∧ (2 : Byte) ≠ 0 ∧ (2 : Byte) ≠ 1 := by decide

/-- The bytes of an entry, and the ends of the signed field. -/
theorem witness_HostLayouts :
    (∃ d, d = JournalEntry.toBytes ⟨.record (rec 9 3 1 0 1 7), true, false, some 255⟩) ∧
      (data 0 1 0).value = none ∧ ({ data 0 1 0 with value := some 0x1234 } : EventData).value = some 0x1234 ∧
      (∃ d, d = JournalEntry.toBytes ⟨.hole ⟨9, 3, 120, 1024, .beyond, 7⟩, false, true, none⟩) ∧
      (∃ d, d = (⟨21, 0, 1, 5, 9, .latch, 15⟩ : Note).toBytes true) ∧
      (-2 ^ 47 : Int) ≤ -2 ^ 47 ∧ (2 ^ 47 - 1 : Int) < 2 ^ 47 := by
  refine ⟨⟨_, rfl⟩, by decide, by decide, ⟨_, rfl⟩, ⟨_, rfl⟩, by decide, by decide⟩

theorem witness_SetupItemsFollowTable :
    (station .setup).host.stage = .opened ∧ (station .setup).mode = .setup ∧ (station .active).mode ≠ .setup ∧
      tableAllows 4 0 100 = true ∧ tableAllows 4 0 101 = false ∧ tableAllows 111 5 1 = true ∧
      tableAllows 112 0 0 = false ∧ tableAllows 29 0 127 = true ∧ addressedItem 4 0 = some .bitTime ∧
      ((5 : Byte), (0 : Byte)) ≠ (4, 0) := by decide

theorem witness_SetupItemsFollowTable_unlisted : ∀ v, tableAllows 30 0 v = false := fun _ => rfl

/-- A station in SETUP with four of its setup values. -/
def committing (beacon silence expel agreement : Nat) : State :=
  { station .setup with
    setup :=
      { Setup.initial with
        beaconInterval := beacon, silenceTimeout := silence, expelTimeout := expel, agreementPeriod := agreement } }

/-- One state for each check of Table 10-3 that fails, at its boundary, and one that passes. -/
theorem witness_CommitChecksThenStarts :
    (committing 50 99 10000 100).host.stage = .opened ∧ (committing 50 99 10000 100).mode = .setup ∧
      (committing 50 99 10000 100).setup.silenceTimeout < 2 * (committing 50 99 10000 100).setup.beaconInterval ∧
      2 * (committing 50 100 100 100).setup.beaconInterval ≤ (committing 50 100 100 100).setup.silenceTimeout ∧
      (committing 50 100 100 100).setup.expelTimeout ≤ (committing 50 100 100 100).setup.silenceTimeout ∧
      2 * (committing 50 100 101 49).setup.beaconInterval ≤ (committing 50 100 101 49).setup.silenceTimeout ∧
      (committing 50 100 101 49).setup.silenceTimeout < (committing 50 100 101 49).setup.expelTimeout ∧
      (committing 50 100 101 49).setup.agreementPeriod < (committing 50 100 101 49).setup.beaconInterval ∧
      (committing 50 100 101 50).setup.beaconInterval ≤ (committing 50 100 101 50).setup.agreementPeriod := by decide

theorem witness_CommitChecksThenStarts_rules :
    (∀ r : Fin 48, ¬((station .setup).setup.rules[r.val].kind = .range ∧
      (station .setup).setup.rules[r.val].b < (station .setup).setup.rules[r.val].a)) ∧
    (({ Setup.initial with rules := Setup.initial.rules.set 47 ⟨.range, 1, 0, .toA, 0, false⟩ } : Setup).rules[47].kind =
      .range) ∧
    ∀ q : Fin 48, q < 47 →
      ¬((Setup.initial.rules.set 47 ⟨.range, 1, 0, .toA, 0, false⟩)[q.val].kind = .range ∧
        (Setup.initial.rules.set 47 ⟨.range, 1, 0, .toA, 0, false⟩)[q.val].b <
          (Setup.initial.rules.set 47 ⟨.range, 1, 0, .toA, 0, false⟩)[q.val].a) := by decide

/-- A working station with `n` records in OUTQ. -/
def submitting (n : Nat) : State :=
  { station .active with outbound := { Outbound.initial with outq := List.replicate n (rec 4 2 0 16 1 0) } }

theorem witness_SubmitCreatesRecord :
    (submitting 31).host.stage = .opened ∧ (submitting 31).mode = .active ∧ (station .leaving).mode ≠ .active ∧
      (15 : Byte).toNat < 16 ∧ 31 < (32 : Byte).toNat ∧ 16 ≤ (16 : Byte).toNat ∧ (31 : Byte).toNat ≤ 31 ∧
      (31 : Channel).val = (31 : Byte).toNat ∧ (16 : Channel).val = (16 : Byte).toNat ∧
      (submitting 31).outbound.outq.length < 32 ∧ (submitting 32).mode = .active ∧
      32 ≤ (submitting 32).outbound.outq.length := by decide

/-- A station whose transmitter is MUTE, after a run of good frames. -/
def muted (run : Nat) : State :=
  { station .active with line := { (station .active).line with transmitter := .mute, goodRun := run } }

theorem witness_UnmuteEndsMute :
    (muted 127).line.transmitter = .mute ∧ (muted 127).line.goodRun = 127 ∧ (station .active).host.stage = .opened ∧
      (station .active).line.transmitter ≠ .mute := by decide

theorem witness_LeaveStartsLeaving :
    (station .active).host.stage = .opened ∧ (station .active).mode = .active ∧ (station .setup).mode ≠ .active := by
  decide

theorem witness_ModeTableDecidesNotNow :
    isHostCommand .leave = true ∧ wellFormed .leave = true ∧ (station .setup).host.stage = .opened ∧
      onlyMode .leave = some .active ∧ (station .setup).mode ≠ .active ∧ onlyMode .leave = some (station .active).mode ∧
      onlyMode .readClock = none := by decide

theorem witness_BytesNameCommands :
    (station .setup).host.stage = .opened ∧
      (0x09 : Byte) ∉ [(0x01 : Byte), 0x02, 0x03, 0x04, 0x05, 0x06, 0x07, 0x08, 0x10, 0x11, 0x12, 0x20, 0x21, 0x22, 0x23] ∧
      (0x24 : Byte) ∉ [(0x01 : Byte), 0x02, 0x03, 0x04, 0x05, 0x06, 0x07, 0x08, 0x10, 0x11, 0x12, 0x20, 0x21, 0x22, 0x23] ∧
      isHostCommand .restart = true ∧ wellFormed .restart = true ∧ isHostCommand (.submit 16 1 0 0) = true ∧
      wellFormed (.submit 16 1 0 0) = true ∧ wellFormed (.badCommand 0x09) = true ∧ State.reset.host.stage = .idle ∧
      State.reset.inReset = false ∧ 5 < (Instr.submit 16 1 0 0).hostBytes.length ∧ hostCommand [0x20, 16, 1, 0, 0] = none := by
  decide

theorem witness_BytesNameCommands_listed : ∀ b, Instr.restart ≠ .badCommand b := fun _ => by simp

/-- ST in a microsecond and the level read in it, `n` times. -/
def steady (level : Bool) (n : Nat) : List (Time × Bool) := List.replicate n (7, level)

/-- The ten bit times of 0xA7 at bt = 1 with a stop bit that reads `stop`. -/
def sync (stop : Bool) : List (Time × Bool) :=
  [false, true, true, true, false, false, true, false, true, stop].map fun level => (7, level)

/-- Over 0xA7 with both stop bits at bt = 1, and a fall that is confirmed or not at bt = 100. -/
theorem witness_ReceiverReadsBytes :
    (station .listening).line.mode = .listening ∧ (station .listening).line.flight = none ∧
      (station .listening).line.receiver.phase = .searching ∧ (station .listening).line.stopLeft = 0 ∧
      (∀ stop, (sync stop).length = 10 * 1 ∧ ((sync stop)[0]?).map (·.2) = some false ∧
        (∀ i, i < 8 → ((sync stop)[(i + 1) * 1 + 1 / 2]?).map (·.2) = some ((0xA7 : Byte).getLsbD i)) ∧
        ((sync stop)[9 * 1 + 1 / 2]?).map (·.2) = some stop ∧ ¬9 * 1 + 1 / 2 + 1 < 10 * 1) ∧
      (steady false 51).length = 100 / 2 + 1 ∧ ((steady false 51)[0]?).map (·.1) = some 7 ∧
      ((steady false 51)[100 / 2]?).map (·.2) = some false ∧
      ((steady false 50 ++ steady true 1)[0]?).map (·.2) = some false ∧
      ((steady false 50 ++ steady true 1)[100 / 2]?).map (·.2) = some true ∧
      (receiving (station .listening) (.held 3)).line.receiver.phase = .held 3 := by decide

/-- A station whose line has been idle for `n` µs. -/
def idleFor (m : Mode) (n : Nat) : State := { station m with line := { (station m).line with idle := n } }

/-- The line stands idle for `n` µs after a completed own frame, with surplus bytes. -/
def afterOwn (n : Nat) (surplus : List Byte) : State :=
  { station .active with
    line :=
      { (idleFor .active n).line with
        lineState := .transmitting, receiver := { Receiver.initial with bytes := surplus } } }

theorem witness_ReceiverEvents :
    (station .listening).mode = .listening ∧ (reading 48).phase = .reading ⟨499990, 499991, 48⟩ 0 0 ∧
      (station .listening).line.lineState = .idle ∧ 12 * (station .listening).setup.bitTime ≤ 48 ∧
      47 < 12 * (station .listening).setup.bitTime ∧ (atEnd (station .listening) []).line.lineState ≠ .idle ∧
      (receiving (station .listening) (.held 3)).line.receiver.phase = .held 3 ∧ (station .listening).receiveData = true ∧
      (∀ rested, (station .listening).line.receiver.phase ≠ .held rested) ∧
      (receiving (idleFor .active 60) (.falling ⟨7, 7, 47⟩)).line.settledIdle = 47 ∧
      (flying (station .active) (.beacon 1 0 false)).line.flight ≠ none ∧
      (afterOwn 47 []).line.settledIdle < 12 * (afterOwn 47 []).setup.bitTime ∧
      (afterOwn 48 [1]).line.lineState = .transmitting ∧ (afterOwn 48 [1]).line.flight = none ∧
      12 * (afterOwn 48 [1]).setup.bitTime ≤ (afterOwn 48 [1]).line.settledIdle ∧
      (afterOwn 48 [1]).line.receiver.bytes ≠ [] ∧ (afterOwn 48 [1]).line.receiver.framingError ≠ true := by
  refine ⟨by decide, by decide, by decide, by decide, by decide, by decide, by decide, by decide, fun _ h => (by cases h), by decide,
    by decide, by decide, by decide, by decide, by decide, by decide, by decide⟩

/-- The state of every frame end from elsewhere: BadFrameEnds, DuplicateNumberStops, GoodFrameHandedOn. -/
abbrev Ends (s : State) (c : FrameClass) : Prop :=
  s.mode = .listening ∧ s.line.lineState = .receiving ∧ s.line.flight = none ∧
    12 * s.setup.bitTime ≤ s.line.settledIdle ∧ classify s.line.receiver.bytes s.line.receiver.framingError = c

theorem witness_BadFrameEnds :
    Ends (atEnd (station .listening) [0xA7]) .cutShort ∧ Ends (atEnd (station .listening) (List.replicate 11 0)) .crcFailed ∧
      Ends (atEnd (station .listening) (frame (.request 9 3 [])).toBytes) (.malformed 9) := by decide

/-- A frame with the number of the station under test. -/
def impostor : Frame := ⟨4, 9, false, 7, .beacon 7 0 false⟩

theorem witness_DuplicateNumberStops :
    Ends (atEnd (station .listening) impostor.toBytes) (.good impostor) ∧
      impostor.sender = (atEnd (station .listening) impostor.toBytes).own := by decide

theorem witness_GoodFrameHandedOn :
    Ends (atEnd (station .listening) (frame (.beacon 7 0 false)).toBytes) (.good (frame (.beacon 7 0 false))) ∧
      (frame (.beacon 7 0 false)).sender ≠ (atEnd (station .listening) []).own ∧
      (muted 127).line.transmitter = .mute ∧ 127 ≤ (muted 127).line.goodRun := by decide

/-- The pair of R21 complete, each part missing, and a step to ACTIVE. -/
def entering (point observed : Bool) : State :=
  { station .listening with
    clock := { (station .listening).clock with firstPoint := point, nextPoint := some 500000 }
    line := { (station .listening).line with observed := observed } }

theorem witness_EntryToActive :
    (entering true true).mode = .listening ∧ (entering true true).clock.firstPoint = true ∧
      (entering true true).line.observed = true ∧ (station .active).mode ≠ .listening ∧
      (entering false true).clock.firstPoint = false ∧ (entering true false).line.observed = false ∧
      (entering false true).mode ≠ .active ∧ (after .agreementPoint (entering false true)).mode = .active := by decide

theorem witness_EntryToActive_next :
    exec .agreementPoint (entering false true) = .next (after .agreementPoint (entering false true)) := rfl

/-- A transmitter in BACKOFF with a count, after an idle time. -/
def backingOff (n idle : Nat) : State :=
  { station .active with line := { (idleFor .active idle).line with transmitter := .backoff, backoff := n } }

theorem witness_BackoffCounts :
    (backingOff 2 1088).mode = .active ∧ (backingOff 2 1088).line.transmitter = .backoff ∧
      2 ≤ (backingOff 2 1088).line.backoff ∧ (backingOff 1 1088).line.backoff ≤ 1 ∧
      (idleFor .active 1088).line.transmitter ≠ .backoff ∧
      (16 + 32 * (backingOff 1 1088).setup.slotWidth * ((backingOff 1 1088).line.rotations + 1)) *
        (backingOff 1 1088).setup.bitTime = 1088 ∧
      (backingOff 1 1088).line.settledIdle = 1088 ∧ (backingOff 1 1087).line.settledIdle < 1088 := by decide

theorem witness_RankAndOpportunities :
    State.reset.line.reference = none ∧
      ({ State.reset with line := { Line.initial with reference := some 9 } } : State).line.reference = some 9 ∧
      (idleFor .active 192).atOpportunity = true ∧
      (receiving (idleFor .active 192) (.falling ⟨7, 7, 191⟩)).atOpportunity = true ∧
      (idleFor .active 191).atOpportunity = false := by decide

/-- The station stands at its first opportunity, with a BEACON due or nothing. -/
def atFirst (beacon : Bool) : State :=
  { idleFor .active 192 with outbound := { Outbound.initial with beaconDue := beacon } }

theorem witness_OpportunityStartsFrameDue :
    (idleFor .active 191).atOpportunity = false ∧ (atFirst false).atOpportunity = true ∧
      (atFirst false).line.lineState = .idle ∧ (atFirst false).line.transmitter = .ready ∧
      (atFirst false).arbitrate = none ∧ (atFirst true).atOpportunity = true ∧
      (atFirst true).arbitrate = some (.beacon 500000 0 false, []) ∧ (atFirst true).mode = .active ∧
      (idleFor .listening 192).atOpportunity = true ∧ (idleFor .listening 192).mode ≠ .active := by decide

/-- A gap of peer 9 is due. -/
def asking : State := (withPeer (station .active) 128).setGaps [gap 120 8 true]

theorem witness_ArbiterOrderAndContents :
    asking.mode = .active ∧ gap 120 8 true ∈ asking.sequencer.gaps ∧ (gap 120 8 true).due = true ∧
      (station .leaving).mode = .leaving ∧ (∀ g ∈ (station .active).sequencer.gaps, g.due = false) ∧
      ({ station .active with outbound := { Outbound.initial with jobs := [⟨1, 1⟩] } } : State).outbound.jobs =
        ⟨1, 1⟩ :: [] ∧
      (submitting 1).outbound.outq = rec 4 2 0 16 1 0 :: [] ∧ (submitting 1).outbound.jobs = [] ∧
      (station .active).outbound.outq = [] ∧ (station .active).outbound.beaconDue = false ∧
      (atFirst true).outbound.beaconDue = true ∧
      ({ station .active with outbound := { Outbound.initial with history := [rec 4 2 212 16 1 0] } } : State).outbound.history =
        rec 4 2 212 16 1 0 :: [] ∧
      seqBelow 211 212 = true ∧ seqBelow 212 212 = false ∧
      asking.requestBody = some (.request 9 3 [⟨120, 8⟩], [(9, 120)]) ∧
      ((gap 120 8 true).deadline - 500000 : Time).toNat < 2 ^ 47 := by decide

theorem witness_ArbiterOrderAndContents_ordered : asking.StoresRight :=
  ⟨by decide, by decide, ⟨by decide, by decide, by decide, by decide, by decide, by decide, by decide, by decide, by decide, by decide,
    by decide, by decide⟩, ⟨by decide, by decide, by decide⟩⟩

/-- Each kind of own frame in flight, past its last stop bit; a bit before it; and one that has failed. -/
theorem witness_CompletionTellsTheSource :
    Completes (flying (station .active) (.beacon 1 0 false)) (ownFlight (.beacon 1 0 false)) ∧
      Completes (flying (station .active) (.event 1 0 [data 16 1 0])) (ownFlight (.event 1 0 [data 16 1 0])) ∧
      Completes (flying (station .active) (.request 9 3 [⟨120, 3⟩])) (ownFlight (.request 9 3 [⟨120, 3⟩])) ∧
      Completes (flying (station .active) (.repeatRecords 1 [data 16 1 0])) (ownFlight (.repeatRecords 1 [data 16 1 0])) ∧
      Completes (flying (station .active) (.repeatGone 205 7)) (ownFlight (.repeatGone 205 7)) ∧
      (400839 - (ownFlight (.beacon 1 0 false)).startL : Time).toNat <
        10 * (ownFlight (.beacon 1 0 false)).frame.toBytes.length * (station .active).setup.bitTime ∧
      ({ ownFlight (.beacon 1 0 false) with mismatch := some 0 } : Flight).mismatch ≠ none ∧
      (station .active).outbound.jobs = [] := by decide

theorem witness_CompletionTellsTheSource_not_leaving :
    ∀ wm next, (ownFlight (.beacon 1 0 false)).frame.body ≠ .beacon wm next true := by
  intro wm next h
  exact absurd (Body.beacon.inj h).2.2 (by decide)

/-- A BEACON in flight with a mismatch in a bit, after a number of failures. -/
abbrev Fails (failures bit : Nat) : Prop :=
  (clashing (station .active) (.beacon 1 0 false) bit failures).line.flight =
      some { ownFlight (.beacon 1 0 false) with mismatch := some bit } ∧
    (clashing (station .active) (.beacon 1 0 false) bit failures).line.failures = failures

/-- No mismatch; one in bits 0, 9, 10 and the last bit, with 14 and 15 failures before; a bit read in its middle. -/
theorem witness_FailedAttemptBacksOff :
    (ownFlight (.beacon 1 0 false)).mismatch = none ∧ (ownFlight (.beacon 1 0 false)).mismatch ≠ some 0 ∧ Fails 0 0 ∧ Fails 14 9 ∧ Fails 14 10 ∧ Fails 15 209 ∧
      ((400002 : Time) - (ownFlight (.beacon 1 0 false)).startL).toNat = 0 * 4 + 4 / 2 ∧
      ((400838 : Time) - (ownFlight (.beacon 1 0 false)).startL).toNat = 209 * 4 + 4 / 2 ∧
      (ownFlight (.beacon 1 0 false)).frame.toBytes[0 / 10]? = some 0xA7 ∧
      ((ownFlight (.beacon 1 0 false)).frame.toBytes[209 / 10]?).isSome = true := by decide

/-- A station in a mode with a point due and one sample of peer 9, of an offset. -/
def sampling (m : Mode) (offset : Int) : State :=
  { (station m).setEntry 9 ⟨.live, 3, 0, 0, some ⟨offset, 499999, true⟩, false⟩ with
    clock := { (station m).clock with nextPoint := some 500000 } }

theorem witness_IncrementMovesTime :
    held.inReset = true ∧ (station .active).clock.uncorrected = none ∧
      (after .agreementPoint (sampling .listening 201)).clock.uncorrected = some 500000 ∧
      (after .agreementPoint (sampling .listening 201)).clock.st = 500201 ∧
      (station .setup).inReset = false ∧ (station .setup).mode = .setup ∧
      (station .stopped).mode = .stopped ∧ (station .stopped).mode.working = false := by decide

/-- The first and the last byte of an own BEACON as driven at bt = 1, a start bit read idle and one read active at
bt = 100, and a byte under way after a mismatch and between start bits. -/
theorem witness_IncrementMovesTime_own_frame :
    (flying (station .active) (.beacon 1 0 false)).line.flight = some (ownFlight (.beacon 1 0 false)) ∧
      (flying (station .active) (.beacon 1 0 false)).line.lineState = .transmitting ∧
      (ownFlight (.beacon 1 0 false)).mismatch = none ∧ (ownFlight (.beacon 1 0 false)).frame.toBytes.length ≤ 110 ∧
      (ownFlight (.beacon 1 0 false)).frame.toBytes[0]? = some 0xA7 ∧
      (ownFlight (.beacon 1 0 false)).frame.toBytes[20]?.isSome = true ∧
      (400200 - (ownFlight (.beacon 1 0 false)).startL : Time).toNat = 10 * 1 * 20 ∧
      (sync true).length = 10 * 1 ∧ ((sync true)[1 / 2]?).map (·.2) = some false ∧
      (∀ i, i < 8 → ((sync true)[(i + 1) * 1 + 1 / 2]?).map (·.2) = some ((0xA7 : Byte).getLsbD i)) ∧
      (∀ i, i < 10 * 1 → 9 * 1 + 1 / 2 ≤ i → ((sync true)[i]?).map (·.2) = some true) ∧
      (steady true 51).length = 100 / 2 + 1 ∧ ((steady true 51)[0]?).map (·.1) = some 7 ∧
      ((steady true 51)[100 / 2]?).map (·.2) = some true ∧ ((steady false 51)[100 / 2]?).map (·.2) = some false ∧
      ({ ownFlight (.beacon 1 0 false) with mismatch := some 9 } : Flight).mismatch ≠ none ∧
      (400001 - (ownFlight (.beacon 1 0 false)).startL : Time).toNat % (10 * 1) ≠ 0 ∧
      (receiving (flying (station .active) (.beacon 1 0 false)) (.reading ⟨7, 7, 0⟩ 0 0)).line.receiver.phase =
        .reading ⟨7, 7, 0⟩ 0 0 := by decide

theorem witness_StationTimeNeverDecreases :
    (station .active).setup.stepLimit ≤ 5000 ∧ (station .active).mode = .active ∧
      (after .readClock (station .active)).mode = .active := by decide

theorem witness_StationTimeNeverDecreases_next :
    exec .readClock (station .active) = .next (after .readClock (station .active)) := rfl

/-- An agreement point with a midpoint below 0, at 0, above 0, and without one; in LISTENING and outside it. -/
theorem witness_AgreementPointCorrects :
    (sampling .active 0).mode = .active ∧ (sampling .active 0).clock.nextPoint = some 500000 ∧
      ((sampling .active 0).l - 500000).toNat < 2 ^ 47 ∧
      ({ station .active with clock := { Clock.initial with nextPoint := some 500000 } } : State).pointMidpoint = none ∧
      (sampling .active (-480)).pointMidpoint = some (-480) ∧ (sampling .active 0).pointMidpoint = some 0 ∧
      (sampling .active 201).pointMidpoint = some 201 ∧ (sampling .listening 201).mode = .listening ∧
      (sampling .listening 201).pointMidpoint = some 201 ∧ 0 < (station .active).setup.stepLimit ∧
      (station .active).clock.debt ≤ 4 * (station .active).setup.stepLimit := by decide

theorem witness_MidpointOfUsableSamples :
    (sampling .active 201).usableSamples = [⟨201, 499999, true⟩] ∧
    (∃ m ∈ [(⟨410, 7, false⟩ : Sample), ⟨38, 7, true⟩], m.agreed = true) ∧
      (∀ m ∈ [(⟨410, 7, false⟩ : Sample)], m.agreed = false) ∧
      timeEarlier 7262777 7300000 = true ∧ timeEarlier 7300000 7300000 = false ∧
      List.Perm [38, -12, 6, -110] [(-110 : Int), -12, 6, 38] ∧
      List.Pairwise (· ≤ ·) [(-110 : Int), -12, 6, 38] ∧ 4 ≤ [(-110 : Int), -12, 6, 38].length ∧
      List.Pairwise (· ≤ ·) [(-30 : Int), 2, 9] ∧ [(-30 : Int), 2, 9].length ≤ 3 ∧ [(-30 : Int), 2, 9] ≠ [] := by decide

theorem witness_ClockStateTable :
    (sampling .active 50).pointMidpoint = some 50 ∧
      (50 : Int).natAbs ≤ (station .active).setup.precisionBound ∧
      (station .active).setup.precisionBound < (51 : Int).natAbs ∧ (station .active).pointMidpoint = none ∧
      ((station .active).setEntry 9 ⟨.live, 3, 0, 0, none, false⟩).pointMidpoint = none ∧
      (∃ i : Station, i ≠ (station .active).own ∧
        (((station .active).setEntry 9 ⟨.live, 3, 0, 0, none, false⟩).entry i).state = .live) ∧
      (∀ i : Station, i ≠ (station .active).own → ((station .active).entry i).state ≠ .live) ∧
      4 * 50 < (201 : Int).natAbs ∧ (200 : Int).natAbs ≤ 4 * 50 ∧ Clock.initial.state = .free ∧
      ({ Clock.initial with state := .converging } : Clock).state = .converging ∧
      ({ Clock.initial with state := .agreed } : Clock).state = .agreed ∧
      Clock.initial.goodPoints < 2 ∧ 2 ≤ ({ Clock.initial with goodPoints := 2 } : Clock).goodPoints ∧
      Clock.initial.alonePoints < 2 ∧ 2 ≤ ({ Clock.initial with alonePoints := 2 } : Clock).alonePoints := by decide

theorem witness_RosterTakesFrame :
    (frame (.beacon 7 0 false)).sender = 9 ∧ ((station .active).entry 9).state = .absent ∧
      (frame (.beacon 7 0 false)).body.isLeaving = false ∧ (frame (.beacon 7 0 true)).body.isLeaving = true ∧
      ((withPeer (station .active) 7).entry 9).state ≠ .absent ∧
      ((withPeer (station .active) 7).entry 9).incarnation = (frame (.beacon 7 0 false)).incarnation ∧
      ((station .active).setEntry 9 ⟨.live, 2, 0, 0, none, false⟩ |>.entry 9).state ≠ .absent ∧
      ((station .active).setEntry 9 ⟨.live, 2, 0, 0, none, false⟩ |>.entry 9).incarnation ≠
        (frame (.beacon 7 0 false)).incarnation ∧
      (8 : Station) ≠ (frame (.beacon 7 0 false)).sender := by decide

theorem witness_RosterTakesFrame_sample :
    ∃ smp : Option Sample,
      smp = some ⟨((frame (.beacon 7 0 false)).sendStamp - 499990).toInt + (station .active).setup.delayCompensation, 499990,
        (frame (.beacon 7 0 false)).clockAgreed⟩ := ⟨_, rfl⟩

/-- Peer 9 in a state, heard 200 ms or 10,000 ms before L = 10,500,000. -/
def heard (m : Membership) (at' : Time) : State :=
  { (station .active).setEntry 9 ⟨m, 3, 0, at', none, false⟩ with
    clock := { Clock.initial with l := 10500000, st := 10500000 } }

theorem witness_RosterTimerExpiries :
    (heard .live 10300000).mode = .active ∧ (9 : Station) ≠ (heard .live 10300000).own ∧
      ((heard .live 10300000).l -
        (((heard .live 10300000).entry 9).heardAt + millis (heard .live 10300000).setup.silenceTimeout)).toNat < 2 ^ 47 ∧
      ((heard .live 10300000).entry 9).state = .live ∧ ((heard .joining 10300000).entry 9).state = .joining ∧
      ((heard .absent 10300000).entry 9).state = .absent ∧ ((heard .silent 500000).entry 9).state = .silent ∧
      ((heard .silent 500000).l -
        (((heard .silent 500000).entry 9).heardAt + millis (heard .silent 500000).setup.expelTimeout)).toNat < 2 ^ 47 := by
  decide

/-- A station whose inputs have been sampled low, with an edge selection and a debounce. -/
def watching (sel : EdgeSelect) (debounce : Nat) : State :=
  { station .active with
    setup := { (station .active).setup with edges := Vector.replicate 16 sel, debounce := debounce }
    capture := { Capture.initial with sampled := true } }

theorem witness_EdgeStartsOrCancels :
    (station .active).capture.sampled = false ∧ (watching .rise 0).capture.sampled = true ∧
      (watching .rise 0).capture.levels.getLsbD 15 = false ∧ (watching .rise 0).capture.levels.getLsbD 15 ≠ true ∧
      ((watching .rise 0).setPendingEdge 15 (some ⟨1, 1, true, true⟩)).pendingEdge 15 ≠ none ∧
      (watching .rise 0).pendingEdge 15 = none ∧ (watching .rise 0).mode = .active ∧
      ((watching .rise 0).setup.edges[15]).selects true = true ∧ (watching .rise 0).setup.debounce = 0 ∧
      0 < (watching .rise 1).setup.debounce ∧ ((watching .off 1).setup.edges[15]).selects true = false ∧
      (station .leaving).mode ≠ .active := by decide

theorem witness_DebounceConfirmsOrLoses :
    (submitting 31).mode = .active ∧
      ((submitting 31).setPendingEdge 15 (some ⟨499000, 499000, true, true⟩)).pendingEdge 15 =
        some ⟨499000, 499000, true, true⟩ ∧
      ((submitting 31).l - (499000 + micros (submitting 31).setup.debounce)).toNat < 2 ^ 47 ∧
      (submitting 31).outbound.outq.length < 32 ∧ 32 ≤ (submitting 32).outbound.outq.length := by decide

theorem witness_TimersExpire :
    ({ station .active with outbound := { Outbound.initial with beaconTimer := some 500000 } } : State).outbound.beaconTimer =
        some 500000 ∧
      (((station .active).setStream .b ⟨[], 0, false, some 500000⟩).stream .b).idleTimer = some 500000 ∧
      ((station .active).l - 500000).toNat < 2 ^ 47 ∧
      ((station .active).setGaps [gap 110 2 false, gap 120 8 false, gap 130 1 false]).sequencer.gaps =
        [gap 110 2 false] ++ gap 120 8 false :: [gap 130 1 false] ∧
      (gap 120 8 false).due = false ∧ ((station .active).l - (gap 120 8 false).deadline).toNat < 2 ^ 47 ∧
      (∀ x ∈ [gap 110 2 false], ¬(x.station = (gap 120 8 false).station ∧ x.first = (gap 120 8 false).first)) ∧
      ({ gap 120 8 false with tries := 2 }).tries < (station .active).setup.maxTries ∧
      (station .active).setup.maxTries ≤ ({ gap 120 8 false with tries := 3 }).tries := by decide

/-- The sent run is 100 to 149, and `n` jobs of (100, 10) are queued. -/
def repeating (n : Nat) : State :=
  { station .active with
    outbound :=
      { Outbound.initial with nextSeq := 150, sentCount := 50, jobs := List.replicate n ⟨100, 10⟩ } }

/-- A range outside the sent run; one whose upper part is in it, from offset 5, and is not inside a queued job, with 7 and
with 8 jobs queued; and one inside a queued job. -/
theorem witness_RequestsBecomeJobs :
    (∀ inc ranges, (frame (.beacon 7 0 false)).body = .request (station .active).own inc ranges →
      inc ≠ (station .active).setup.incarnation) ∧
    (frame (.request 4 2 [⟨95, 20⟩])).body = .request (station .active).own (station .active).setup.incarnation [⟨95, 20⟩] ∧
    (∀ k, k < (5 : Byte).toNat → (repeating 7).outbound.inSentRun (95 + BitVec.ofNat 16 k) = false) ∧
    1 ≤ (15 : Byte).toNat ∧ 5 + (15 : Byte).toNat ≤ (20 : Byte).toNat ∧ (100 : Seq) = 95 + BitVec.ofNat 16 5 ∧
    (∀ k, k < (20 : Byte).toNat →
      ((repeating 7).outbound.inSentRun (95 + BitVec.ofNat 16 k) = true ↔ 5 ≤ k ∧ k < 5 + (15 : Byte).toNat)) ∧
    (∀ q ∈ (repeating 7).outbound.jobs, ¬(15 : Byte).toNat ≤ q.count.toNat) ∧
    (repeating 7).outbound.jobs.length < 8 ∧ 8 ≤ (repeating 8).outbound.jobs.length ∧
    (∃ q ∈ (repeating 8).outbound.jobs, ∃ d : Nat, d + (3 : Byte).toNat ≤ q.count.toNat ∧
      (107 : Seq) = q.first + BitVec.ofNat 16 d) := by
  refine ⟨fun _ _ h => by simp [frame] at h, by decide, by decide, by decide, by decide, by decide, by decide, by decide,
    by decide, by decide, ⟨⟨100, 10⟩, by decide, 7, by decide, by decide⟩⟩

/-- Peer 9 with NE 128 and `n` open gaps above the one of 8 from 120. -/
def sorting (n : Nat) : State :=
  (withPeer (station .active) 128).setGaps (List.replicate n (gap 90 2 false) ++ [gap 120 8 false])

/-- Each kind of frame; a sender without an entry, with NE unset and with NE 128; a BEACON with a run of 0, 1, 1,024,
1,025 and below 2^15, and below NE; with 31 and 32 gaps open. -/
theorem witness_SequencerTakesFrame :
    (station .active).seqEntry (frame (.beacon 7 0 false)).sender = none ∧
      ((withPeer (station .active) 128).setSeqEntry 9 (some ⟨3, none, 0⟩)).seqEntry (frame (.beacon 7 0 false)).sender =
        some ⟨3, none, 0⟩ ∧
      (sorting 30).seqEntry (frame (.beacon 7 0 false)).sender = some ⟨3, some 128, 499000⟩ ∧
      ((128 : Seq) - 128).toNat = 0 ∧ ((129 : Seq) - 128).toNat = 1 ∧ ((1152 : Seq) - 128).toNat = 1024 ∧
      ((1153 : Seq) - 128).toNat = 1025 ∧ ((127 : Seq) - 128).toNat ≥ 2 ^ 15 ∧ ((32895 : Seq) - 128).toNat < 2 ^ 15 ∧
      ((32896 : Seq) - 128).toNat = 2 ^ 15 ∧ (sorting 30).sequencer.gaps.length < 32 ∧
      32 ≤ (sorting 31).sequencer.gaps.length ∧
      (frame (.event 7 128 [data 0 1 0])).body = .event 7 128 [data 0 1 0] ∧
      (frame (.request 9 3 [⟨120, 3⟩])).body = .request 9 3 [⟨120, 3⟩] ∧
      (frame (.repeatRecords 120 [data 0 1 0])).body = .repeatRecords 120 [data 0 1 0] ∧
      (frame (.repeatGone 120 7)).body = .repeatGone 120 7 := by decide

/-- One record of peer 9 against NE 128 and the gap of 8 from 120, with 31 and 32 gaps open: new at NE, a run of 1,024
and of 1,025, a duplicate, and the first, a middle and the last number of the gap. -/
theorem witness_RecordIsSorted :
    (sorting 30).seqEntry 9 = some ⟨3, some 128, 499000⟩ ∧
      ((1152 : Seq) - 128).toNat ≤ 1024 ∧ 1024 < ((1153 : Seq) - 128).toNat ∧
      ((1153 : Seq) - 128).toNat < 2 ^ 15 ∧ 2 ^ 15 ≤ ((119 : Seq) - 128).toNat ∧
      (∀ g ∈ (sorting 0).sequencer.gaps, g.station = 9 → g.contains 119 = false) ∧
      (sorting 30).sequencer.gaps = List.replicate 30 (gap 90 2 false) ++ gap 120 8 false :: [] ∧
      (∀ x ∈ List.replicate 30 (gap 90 2 false), x.station = 9 → x.contains 123 = false) ∧
      (gap 120 8 false).contains 120 = true ∧ (gap 120 8 false).contains 127 = true ∧
      (127 : Seq) = (gap 120 8 false).last ∧ (120 : Seq) = (gap 120 8 false).first ∧
      (123 : Seq) ≠ (gap 120 8 false).last ∧ (gap 120 1 false).contains 120 = true ∧ (gap 120 1 false).count = 1 ∧
      (sorting 30).sequencer.gaps.length < 32 ∧ 32 ≤ (sorting 31).sequencer.gaps.length := by decide

/-- Which gaps a REQUEST for peer 9, incarnation 3, range (127, 2) hits: the due or WAITING ones that hold 127 or 128. -/
theorem witness_SuppressionGoneAndBeyond_suppress :
    ∃ hit : Gap → Bool, ∀ g, hit g = true ↔
      g.station = 9 ∧ g.incarnation = 3 ∧ (g.due = true ∨ g.state = .waiting) ∧
        ∃ r ∈ [(⟨127, 2⟩ : SeqRange)], ∃ j k : Nat, j < r.count.toNat ∧ k < g.count ∧
          r.first + BitVec.ofNat 16 j = g.first + BitVec.ofNat 16 k := by
  open Classical in
  exact ⟨fun g => decide (g.station = 9 ∧ g.incarnation = 3 ∧ (g.due = true ∨ g.state = .waiting) ∧
        ∃ r ∈ [(⟨127, 2⟩ : SeqRange)], ∃ j k : Nat, j < r.count.toNat ∧ k < g.count ∧
          r.first + BitVec.ofNat 16 j = g.first + BitVec.ofNat 16 k), fun _ => decide_eq_true_iff⟩

/-- A GONE range against the gap of 8 from 120: none of it, its first 3, its last 3, all 8, and 2 in the middle, with 31
and with 32 gaps open. -/
theorem witness_SuppressionGoneAndBeyond_gone :
    (sorting 30).sequencer.gaps = List.replicate 30 (gap 90 2 false) ++ gap 120 8 false :: [] ∧
      (∀ x ∈ List.replicate 31 (gap 90 2 false),
        ¬(x.station = (gap 120 8 false).station ∧ x.first = (gap 120 8 false).first)) ∧
      (∀ k, k < 8 → (7 : Byte).toNat ≤ (120 + BitVec.ofNat 16 k - 113 : Seq).toNat) ∧
      (∀ k, k < 8 → ((120 + BitVec.ofNat 16 k - 118 : Seq).toNat < (5 : Byte).toNat ↔ 0 ≤ k ∧ k < 0 + 3)) ∧
      (∀ k, k < 8 → ((120 + BitVec.ofNat 16 k - 125 : Seq).toNat < (9 : Byte).toNat ↔ 5 ≤ k ∧ k < 5 + 3)) ∧
      (∀ k, k < 8 → ((120 + BitVec.ofNat 16 k - 120 : Seq).toNat < (8 : Byte).toNat ↔ 0 ≤ k ∧ k < 0 + 8)) ∧
      (∀ k, k < 8 → ((120 + BitVec.ofNat 16 k - 123 : Seq).toNat < (2 : Byte).toNat ↔ 3 ≤ k ∧ k < 3 + 2)) ∧
      5 + 3 = (gap 120 8 false).count ∧ 3 + 2 < (gap 120 8 false).count ∧
      (∀ g ∈ (sorting 31).sequencer.gaps, 1 ≤ g.count ∧ g.count ≤ 1024) ∧ (gap 120 1 false).count = 1 ∧
      (gap 120 1024 false).count = 1024 ∧
      (sorting 30).sequencer.gaps.length < 32 ∧ 32 ≤ (sorting 31).sequencer.gaps.length := by decide

/-- NE of peer 9 advances to 32,888, which leaves the gap from 120 exactly 32,768 below and one from 121 less. -/
theorem witness_SuppressionGoneAndBeyond_beyond :
    (station .active).seqEntry 9 = none ∧ (sorting 0).seqEntry 9 = some ⟨3, some 128, 499000⟩ ∧
      (∀ g : Gap, (g.station == 9 && decide (32768 ≤ ((32888 : Seq) - g.first).toNat)) = true ↔
        g.station = 9 ∧ 32768 ≤ ((32888 : Seq) - g.first).toNat) ∧
      32768 ≤ ((32888 : Seq) - (gap 120 8 false).first).toNat ∧
      ((32888 : Seq) - (gap 121 7 false).first).toNat < 32768 := by
  refine ⟨by decide, by decide, fun g => by simp, by decide, by decide⟩

theorem witness_EventKeyAndMatching :
    Rule.initial.kind = .disabled ∧ (⟨.range, 5, 5, .toA, 0, false⟩ : Rule).kind = .range ∧
      (⟨.pair, 5, 5, .toA, 0, false⟩ : Rule).kind = .pair ∧ (⟨.masked, 5, 0, .toA, 0, false⟩ : Rule).kind = .masked ∧
      (⟨.range, 5, 5, .toA, 0, false⟩ : Rule).a = (⟨.range, 5, 5, .toA, 0, false⟩ : Rule).b ∧
      (⟨.masked, 5, 0, .toA, 0, false⟩ : Rule).b = 0 ∧
      (⟨.masked, 5, 262143, .toA, 0, false⟩ : Rule).b.toNat = 262143 := by decide

/-- A station whose rule 47 alone matches, with `n` notes queued. -/
def noting (n : Nat) : State :=
  { station .active with
    setup := { Setup.initial with rules := Setup.initial.rules.set 47 ⟨.masked, 0, 0, .latch, 15, true⟩ }
    urgent := ⟨List.replicate n ⟨9, 0, 1, 5, 9, .toA, 0⟩, false⟩ }

/-- Rule 47 is the first to match and is urgent, with three and with four notes queued; and no rule matches. -/
theorem witness_FirstMatchDecides :
    ((noting 3).setup.rules[(47 : Fin 48).val]).matchesKey (rec 9 3 1 0 1 0).key = true ∧
      ((noting 3).setup.rules[(47 : Fin 48).val]).urgent = true ∧
      (∀ j : Fin 48, j < 47 → ((noting 3).setup.rules[j.val]).matchesKey (rec 9 3 1 0 1 0).key = false) ∧
      (∀ j : Fin 48, ((station .active).setup.rules[j.val]).matchesKey (rec 9 3 1 0 1 0).key = false) ∧
      (noting 3).urgent.notes.length < 4 ∧ 4 ≤ (noting 4).urgent.notes.length := by decide

theorem witness_HorizonIsEarliest :
    (∀ x ∈ (withPeer (station .active) 7).st :: (withPeer (station .active) 7).pendingTimes,
      (x - 400000).toNat < 2 ^ 47) ∧
    (∀ g ∈ [gap 120 8 true], (g.bound - 400000).toNat < 2 ^ 47) ∧
    (withPeer (station .active) 7).outbound.outq = [] := by
  refine ⟨?_, by decide, rfl⟩
  intro x hx
  rw [show (withPeer (station .active) 7).pendingTimes = [] from rfl] at hx
  rw [List.mem_singleton.1 hx]
  show ((500000 : Time) - 400000).toNat < 2 ^ 47
  decide

theorem witness_HorizonIsEarliest_watermarks :
    ∀ x ∈ (List.finRange 32).filterMap (withPeer (station .active) 7).heldWatermark, (x - 400000).toNat < 2 ^ 47 := by
  have h : ∀ i : Station, (withPeer (station .active) 7).heldWatermark i = if i = 9 then some 499000 else none := by
    decide
  intro x hx
  obtain ⟨i, -, hi⟩ := List.mem_filterMap.1 hx
  rw [h i] at hi
  split at hi
  · cases hi; decide
  · cases hi

theorem witness_OrderedReleaseSettles :
    (station .setup).mode.working = false ∧ (station .active).mode = .active ∧ (station .leaving).mode = .leaving := by
  decide

/-- A station whose stream A holds `n` entries. -/
def holding (n : Nat) : State := (station .active).setStream .a ⟨List.replicate n (streamEntry 1), 0, false, none⟩

/-- Stream A, in HOLD mode, holds 63 entries, and two pooled ones are behind R. -/
def releasing : State :=
  { (holding 63).setPool
      [⟨.record (rec 9 3 2 0 1 7), .stream .a⟩, ⟨.record (rec 9 3 3 0 1 8), .stream .a⟩] with
    setup := { (station .active).setup with streamA := { Setup.initial.streamA with mode := .hold } } }

/-- R133: one entry leaves, into the last place; the other is held by the full stream. -/
theorem witness_OrderedReleaseSettles_hold :
    (releasing.setup.stream .a).mode = .hold ∧
      releasing.journal.pool =
        ([] ++ ⟨.record (rec 9 3 2 0 1 7), .stream .a⟩ :: []) ++ (after .orderedRelease releasing).journal.pool ∧
      ((after .orderedRelease releasing).stream .a).entries.length = 64 := by decide

theorem witness_DeliveryReachesDestination :
    ((holding 63).stream .a).entries.length < 64 ∧ 64 ≤ ((holding 64).stream .a).entries.length := by decide

/-- A station in a mode whose pool holds `n` entries with timestamp 7 and whose R is 8. -/
def pooling (m : Mode) (n : Nat) : State :=
  ((station m).setThrough 8).setPool (List.replicate n ⟨.record (rec 9 3 1 0 1 7), .stream .a⟩)

/-- The arrival of a copy, and of a record before and behind R; the pool at 255 and 256 entries; the entry that leaves a
full pool in LISTENING, with each kind of destination. -/
theorem witness_ArrivalAtThePool :
    (∃ x ∈ (pooling .active 1).journal.pool, Item.sameRecord (.record (rec 9 3 1 0 1 7)) x.item = true) ∧
    (∀ x ∈ (pooling .active 255).journal.pool, Item.sameRecord (.record (rec 9 3 2 0 1 7)) x.item = false) ∧
    timeEarlier 7 (pooling .active 255).journal.through = true ∧
    timeEarlier 8 (pooling .active 255).journal.through = false ∧ (pooling .active 255).journal.pool.length < 256 ∧
    256 ≤ (pooling .listening 256).journal.pool.length ∧ (pooling .listening 256).mode = .listening ∧
    (insertInOrder ⟨.record (rec 9 3 2 0 1 8), .stream .a⟩ (pooling .listening 256).journal.pool).head?.map (·.destination) =
      some (.stream .a) ∧
    (insertInOrder ⟨.record (rec 9 3 2 0 1 6), .slot 4⟩ (pooling .listening 256).journal.pool).head?.map (·.destination) =
      some (.slot 4) ∧
    (insertInOrder ⟨.hole ⟨9, 3, 2, 1, .left, 6⟩, .bothStreams⟩ (pooling .listening 256).journal.pool).head?.map (·.destination) =
      some .bothStreams ∧
    (pooling .active 255).setup.latePolicy = .deliver ∧ (pooling .stopped 1).mode = .stopped := by decide

theorem witness_ForcedRelease :
    (pooling .active 256).mode = .active ∧
    (∀ x ∈ (pooling .active 256).journal.pool, Item.sameRecord (.record (rec 9 3 2 0 1 9)) x.item = false) ∧
    timeEarlier 9 (pooling .active 256).journal.through = false ∧
    (pooling .active 256).journal.pool = ⟨.record (rec 9 3 1 0 1 7), .stream .a⟩ :: (pooling .active 255).journal.pool ∧
    256 ≤ (pooling .active 256).journal.pool.length := by decide

theorem witness_FrameRoundTrip : (frame (.event 7 65535 [⟨31, 255, 9, true, some 65535, some 255⟩])).body.legal := by
  refine ⟨by decide, by decide, ?_⟩
  intro d hd
  rw [List.mem_singleton.1 hd]
  unfold EventData.legal
  decide

/-- Bytes of a frame of a kind, a sender and a body, with the right CRC. -/
def sealed (kind sender : Byte) (body : List Byte) : List Byte :=
  let covered := [kind, sender, 3, 0, 0, 0, 0, 0, 0] ++ [BitVec.ofNat 8 body.length] ++ body
  0xA7 :: covered ++ leBytes 2 (crcOf covered).toNat

/-- The length and CRC conditions at their boundaries. -/
theorem witness_FrameChecksDecideClass :
    (List.replicate 10 (0xA7 : Byte)).length < 11 ∧ 11 ≤ (List.replicate 11 (0xA6 : Byte)).length ∧ (0xA6 : Byte) ≠ 0xA7 ∧
      (List.replicate 12 (0xA7 : Byte))[10]? = some 0xA7 ∧ (List.replicate 12 (0xA7 : Byte)).length < 13 + (0xA7 : Byte).toNat ∧
      13 + (0 : Byte).toNat < ([0xA7, 0, 0, 0, 0, 0, 0, 0, 0, 0, 0, 0, 0, 0] : List Byte).length ∧
      ([0xA7, 0, 0, 0, 0, 0, 0, 0, 0, 0, 0, 0, 0] : List Byte).length = 13 + (0 : Byte).toNat ∧
      ([0xA7, 0, 0, 0, 0, 0, 0, 0, 0, 0, 0, 0, 0] : List Byte).drop 11 ≠
        leBytes 2 (crcOf [0, 0, 0, 0, 0, 0, 0, 0, 0, 0]).toNat := by decide

/-- A BEACON with the right CRC, of sender 31 and 32, of 8 and of 7 body bytes. -/
theorem witness_FrameChecksDecideClass_contents :
    (∀ n, n = 7 ∨ n = 8 → ∀ sender : Byte, sender = 31 ∨ sender = 32 →
      (sealed 2 sender (List.replicate n 0))[0]? = some 0xA7 ∧
        (sealed 2 sender (List.replicate n 0))[10]? = some (BitVec.ofNat 8 n) ∧
        (sealed 2 sender (List.replicate n 0)).length = 13 + n ∧
        (sealed 2 sender (List.replicate n 0)).drop (11 + n) =
          leBytes 2 (crcOf (((sealed 2 sender (List.replicate n 0)).drop 1).take (10 + n))).toNat) ∧
      31 < (32 : Byte).toNat ∧ (31 : Station).val = (31 : Byte).toNat ∧
      contentsRight 2 (List.replicate 7 0) = false ∧ contentsRight 2 (List.replicate 8 0) = true := by
  refine ⟨?_, by decide, by decide, by decide, by decide⟩
  rintro n (rfl | rfl) sender (rfl | rfl) <;> decide

/-- R11, R12: a BEACON with a reserved kind bit, of a body one byte short, and of sender 32. -/
theorem test_classify_contents :
    classify (sealed 0x42 9 (List.replicate 8 0)) false = .malformed 9 ∧
      classify (sealed 2 9 (List.replicate 7 0)) false = .malformed 9 ∧
      classify (sealed 2 32 (List.replicate 8 0)) false = .crcFailed := by decide

/-- The invariants hold after reset, and reset takes a step: StoresStayRight, BlocksStayRight. -/
theorem witness_StoresRight : State.reset.StoresRight :=
  ⟨by decide, by decide, ⟨by decide, by decide, by decide, by decide, by decide, by decide, by decide, by decide, by decide, by decide, by decide,
    by decide⟩, ⟨by decide, by decide, by decide⟩⟩

theorem witness_BlocksRight : State.reset.BlocksRight where
  tables := ⟨by decide, by decide, fun i q _ h => by simp [State.seqEntry, State.reset, Sequencer.initial] at h⟩
  ownEntry := by unfold State.OwnEntryRight; decide
  flight := fun f h => by simp [State.reset, Line.initial] at h
  pendingEdges := by unfold State.PendingRight; decide
  debt := by unfold State.DebtBounded; decide
  clear := fun _ => ⟨rfl, rfl, rfl, rfl, rfl, rfl, rfl, rfl, rfl, rfl, rfl⟩

theorem witness_step : ∃ t, step State.reset = .next t := ⟨_, rfl⟩

end Sys2Proof.Tests
end

section
/-! PROOFS. UNMUTE and the end of MUTE (R36, R35, R178). -/

namespace Sys2Proof.Machine

/-! ### Taking a command and the FAULT condition -/

@[simp] theorem State.take_of_opened {s : State} (f : State → State) (h : s.host.stage = .opened) :
    s.take f = f s := if_pos h

theorem State.fault_iff (s : State) : s.fault = true ↔ s.line.transmitter = .mute ∨ s.mode = .stopped := by
  simp [State.fault]

/-! ### The two ways out of MUTE -/

section
variable {n : Line}

theorem Line.unmute_of_mute (h : n.transmitter = .mute) :
    n.unmute = { n with transmitter := .ready, failures := 0 } := if_pos h

theorem Line.unmute_of_ne_mute (h : n.transmitter ≠ .mute) : n.unmute = n := if_neg h

theorem Line.hearGood_of_ne_mute (h : n.transmitter ≠ .mute) :
    n.hearGood = { n with goodRun := min goodRunCap (n.goodRun + 1) } := if_neg fun ⟨_, hmute⟩ => h hmute

/-- R35: the good frame that brings the run count to its cap ends MUTE. -/
theorem Line.hearGood_of_mute_of_cap_le (hmute : n.transmitter = .mute) (hrun : goodRunCap ≤ n.goodRun + 1) :
    n.hearGood = { n with goodRun := goodRunCap, transmitter := .ready, failures := 0 } := by
  simp [Line.hearGood, Nat.min_eq_left hrun, hmute]

/-- R36: after the good frame that ends MUTE, an UNMUTE finds the transmitter READY. -/
theorem Line.unmute_hearGood (hmute : n.transmitter = .mute) (hrun : goodRunCap ≤ n.goodRun + 1) :
    n.hearGood.unmute = n.hearGood := by
  rw [Line.hearGood_of_mute_of_cap_le hmute hrun]
  exact Line.unmute_of_ne_mute nofun

/-- R36: after an UNMUTE, the good frame that would have ended MUTE only brings the run count to its cap. -/
theorem Line.hearGood_unmute (hmute : n.transmitter = .mute) (hrun : goodRunCap ≤ n.goodRun + 1) :
    n.unmute.hearGood = n.hearGood := by
  rw [Line.hearGood_of_mute_of_cap_le hmute hrun, Line.unmute_of_mute hmute, Line.hearGood_of_ne_mute,
    Nat.min_eq_left hrun]
  nofun

end

/-! ### UNMUTE in an open transaction -/

theorem exec_unmute_of_opened {s : State} (h : s.host.stage = .opened) :
    exec .unmute s = .next ({ s with line := s.line.unmute }.answer .ok []) :=
  congrArg Host.Outcome.next (State.take_of_opened _ h)

/-- Settles O18: UNMUTE opens into `Line.unmute`, and each order of UNMUTE and the 128th good frame is a lemma. -/
theorem unmuteEndsMute : Obligations.UnmuteEndsMute := by
  intro s hopen
  refine ⟨fun hmute => ⟨_, ?_, rfl, ?_⟩, fun hne => ?_, fun hmute hrun => ?_⟩
  · rw [exec_unmute_of_opened hopen, Line.unmute_of_mute hmute]
  · simp [State.fault_iff, State.mode]
  · rw [exec_unmute_of_opened hopen, Line.unmute_of_ne_mute hne]
  · have hcap : goodRunCap ≤ s.line.goodRun + 1 := by simp [goodRunCap, hrun]
    exact ⟨Line.hearGood_unmute hmute hcap, Line.unmute_hearGood hmute hcap,
      by rw [Line.hearGood_of_mute_of_cap_le hmute hcap]⟩

end Sys2Proof.Machine
end

section
/-! PROOFS. The event key and what each kind of rule matches (R115). -/

namespace Sys2Proof.Machine

/-! ### The event key -/

section
variable (r : Record)

/-- R115: the key is a number below 2 ^ 18, so nothing of the sum is cut off. -/
theorem Record.key_toNat :
    r.key.toNat = r.station.val * 8192 + r.data.channel.val * 256 + r.data.code.toNat := by
  have hcode : r.data.code.toNat < 256 := r.data.code.isLt
  have hbound : r.station.val * 8192 + r.data.channel.val * 256 + r.data.code.toNat < 2 ^ 18 := by omega
  exact (BitVec.toNat_ofNat _ _).trans (Nat.mod_eq_of_lt hbound)

/-- The field of `len` bits that begins at bit `start` of the key, as a part of the sum of R115. -/
theorem Record.key_field_toNat (start len : Nat) :
    (r.key.extractLsb' start len).toNat =
      (r.station.val * 8192 + r.data.channel.val * 256 + r.data.code.toNat) / 2 ^ start % 2 ^ len := by
  rw [BitVec.extractLsb'_toNat, Record.key_toNat, Nat.shiftRight_eq_div_pow]

theorem Record.key_codeBits : r.key.extractLsb' 0 8 = r.data.code := by
  have hcode : r.data.code.toNat < 256 := r.data.code.isLt
  apply BitVec.eq_of_toNat_eq
  rw [Record.key_field_toNat]
  omega

theorem Record.key_channelBits : (r.key.extractLsb' 8 5).toNat = r.data.channel.val := by
  have hcode : r.data.code.toNat < 256 := r.data.code.isLt
  rw [Record.key_field_toNat]
  omega

theorem Record.key_stationBits : (r.key.extractLsb' 13 5).toNat = r.station.val := by
  have hcode : r.data.code.toNat < 256 := r.data.code.isLt
  rw [Record.key_field_toNat]
  omega

end

/-! ### The keys a rule of each kind matches -/

section
variable {rule : Rule} {k : Key}

theorem Rule.matchesKey_of_disabled (h : rule.kind = .disabled) : rule.matchesKey k = false := by
  simp [Rule.matchesKey, h]

theorem Rule.matchesKey_range_iff (h : rule.kind = .range) :
    rule.matchesKey k = true ↔ rule.a.toNat ≤ k.toNat ∧ k.toNat ≤ rule.b.toNat := by
  simp [Rule.matchesKey, h, BitVec.le_def]

theorem Rule.matchesKey_pair_iff (h : rule.kind = .pair) :
    rule.matchesKey k = true ↔ k = rule.a ∨ k = rule.b := by
  simp [Rule.matchesKey, h]

theorem Rule.matchesKey_masked_iff (h : rule.kind = .masked) :
    rule.matchesKey k = true ↔ k &&& rule.b = rule.a &&& rule.b := by
  simp [Rule.matchesKey, h]

/-- RANGE from A to A: a key between A and A is A. -/
theorem Rule.matchesKey_range_self_iff (h : rule.kind = .range) (hab : rule.a = rule.b) :
    rule.matchesKey k = true ↔ k = rule.a := by
  rw [Rule.matchesKey_range_iff h, ← hab, ← BitVec.toNat_inj]
  omega

theorem Rule.matchesKey_pair_self_iff (h : rule.kind = .pair) (hab : rule.a = rule.b) :
    rule.matchesKey k = true ↔ k = rule.a := by
  rw [Rule.matchesKey_pair_iff h, ← hab, or_self]

/-- Two keys agree under a mask exactly when they agree in every bit that the mask selects. -/
theorem Key.and_eq_and_iff {k a b : Key} :
    k &&& b = a &&& b ↔ ∀ i, i < 18 → b.getLsbD i = true → k.getLsbD i = a.getLsbD i := by
  constructor
  · intro h i _ hsel
    have hbit := congrArg (·.getLsbD i) h
    simpa [hsel] using hbit
  · intro h
    refine BitVec.eq_of_getLsbD_eq fun i hi => ?_
    rw [BitVec.getLsbD_and, BitVec.getLsbD_and]
    cases hsel : b.getLsbD i with
    | false => rw [Bool.and_false, Bool.and_false]
    | true => rw [h i hi hsel]

theorem Rule.matchesKey_masked_of_zero (h : rule.kind = .masked) (hb : rule.b = 0) :
    rule.matchesKey k = true := by
  rw [Rule.matchesKey_masked_iff h, hb]
  exact BitVec.and_zero.trans BitVec.and_zero.symm

/-- The mask 262,143 has all 18 bits set, so it leaves both keys as they are. -/
theorem Rule.matchesKey_masked_full_iff (h : rule.kind = .masked) (hb : rule.b.toNat = 262143) :
    rule.matchesKey k = true ↔ k = rule.a := by
  have hones : rule.b = BitVec.allOnes 18 := BitVec.eq_of_toNat_eq hb
  rw [Rule.matchesKey_masked_iff h, hones, BitVec.and_allOnes, BitVec.and_allOnes]

end

/-- Settles O49: each field of the key and each kind of rule is a lemma; the incarnation stands nowhere in the key. -/
theorem eventKeyAndMatching : Obligations.EventKeyAndMatching := by
  constructor
  · intro r
    exact ⟨r.key_toNat, ⟨r.key_codeBits, r.key_channelBits, r.key_stationBits⟩, fun _ => rfl⟩
  · intro rule k
    refine ⟨Rule.matchesKey_of_disabled, Rule.matchesKey_range_iff, Rule.matchesKey_pair_iff, ?_, fun h => ⟨?_, ?_, ?_⟩⟩
    · rintro (h | h)
      · exact Rule.matchesKey_range_self_iff h
      · exact Rule.matchesKey_pair_self_iff h
    · exact (Rule.matchesKey_masked_iff h).trans Key.and_eq_and_iff
    · exact Rule.matchesKey_masked_of_zero h
    · exact Rule.matchesKey_masked_full_iff h

end Sys2Proof.Machine
end

section
/-! PROOFS. READ-LATCH and READ-URGENT (R162, R121). -/

namespace Sys2Proof.Machine

section
variable {s : State}

/-! ### Reading a latch slot -/

theorem State.readSlot_of_none {n : SlotNo} (h : s.journal.latches[n.val] = none) :
    s.readSlot n = s.answer .empty [] := by
  simp only [State.readSlot, h]

/-- R162: the fresh flag is answered as it stood, and in the slot it is then clear. -/
theorem State.readSlot_of_some {n : SlotNo} {x : Latch} (h : s.journal.latches[n.val] = some x) :
    s.readSlot n =
      State.answer
        { s with journal := { s.journal with latches := s.journal.latches.set n.val (some { x with fresh := false }) } }
        .ok x.toBytes := by
  simp only [State.readSlot, h]

theorem State.readLatch_of_slot {b : Byte} {n : SlotNo} (h : n.val = b.toNat) : s.readLatch b = s.readSlot n := by
  have hn : n = ⟨b.toNat, h ▸ n.isLt⟩ := Fin.ext h
  rw [hn]
  exact dif_pos _

theorem State.readLatch_of_lt {b : Byte} (h : 15 < b.toNat) : s.readLatch b = s.answer .outOfRange [] :=
  dif_neg (by omega)

/-- In SETUP every slot is empty (R160). -/
theorem State.SetupClear.latches_eq_none (h : s.SetupClear) (n : SlotNo) : s.journal.latches[n.val] = none := by
  rw [h.journal]
  exact Vector.getElem_replicate n.isLt

/-! ### Reading the urgent queue -/

theorem State.readUrgent_of_nil (h : s.urgent.notes = []) : s.readUrgent = s.answer .empty [] := by
  simp only [State.readUrgent, h]

/-- R121: the overflow flag is answered as it stood, and cleared exactly if the queue becomes empty. -/
theorem State.readUrgent_of_cons {n : Note} {rest : List Note} (h : s.urgent.notes = n :: rest) :
    s.readUrgent =
      State.answer { s with urgent := ⟨rest, if rest = [] then false else s.urgent.overflow⟩ }
        .ok (n.toBytes s.urgent.overflow) := by
  cases rest <;> simp [State.readUrgent, h]

/-- In SETUP the urgent queue is empty (R124). -/
theorem State.SetupClear.notes_eq_nil (h : s.SetupClear) : s.urgent.notes = [] :=
  congrArg Urgent.notes h.urgent

theorem State.FlagsHold.overflow_eq_false (h : s.FlagsHold) (hnil : s.urgent.notes = []) :
    s.urgent.overflow = false :=
  Bool.eq_false_iff.2 fun hset => h.overflow hset hnil

/-! ### The two commands in an open transaction -/

theorem exec_readLatch_of_opened (h : s.host.stage = .opened) (b : Byte) :
    exec (.readLatch b) s = .next (s.readLatch b) :=
  congrArg Host.Outcome.next (State.take_of_opened _ h)

theorem exec_readLatch_of_slot (h : s.host.stage = .opened) {b : Byte} {n : SlotNo} (hn : n.val = b.toNat) :
    exec (.readLatch b) s = .next (s.readSlot n) := by
  rw [exec_readLatch_of_opened h, State.readLatch_of_slot hn]

theorem exec_readUrgent_of_opened (h : s.host.stage = .opened) : exec .readUrgent s = .next s.readUrgent :=
  congrArg Host.Outcome.next (State.take_of_opened _ h)

end

/-- Settles O9: each answer of `readSlot` and of `readUrgent` is a lemma; in SETUP both find nothing held. -/
theorem latchAndNoteReads : Obligations.LatchAndNoteReads := by
  intro s hopen
  refine ⟨fun b => ⟨fun hb => ?_, fun n hn => ⟨fun hnone => ?_, fun hclear hsetup => ?_, fun x hx => ?_⟩⟩,
    fun n rest hnotes => ?_, fun hnil => ?_, fun hflags hnil => hflags.overflow_eq_false hnil,
    fun hclear hsetup => ?_⟩
  · rw [exec_readLatch_of_opened hopen, State.readLatch_of_lt hb]
  · rw [exec_readLatch_of_slot hopen hn, State.readSlot_of_none hnone]
  · rw [exec_readLatch_of_slot hopen hn, State.readSlot_of_none ((hclear hsetup).latches_eq_none n)]
  · rw [exec_readLatch_of_slot hopen hn, State.readSlot_of_some hx]
    rfl
  · rw [exec_readUrgent_of_opened hopen, State.readUrgent_of_cons hnotes]
  · rw [exec_readUrgent_of_opened hopen, State.readUrgent_of_nil hnil]
  · rw [exec_readUrgent_of_opened hopen, State.readUrgent_of_nil (hclear hsetup).notes_eq_nil]

end Sys2Proof.Machine
end

section
/-! PROOFS. READ-COUNTERS, CLEAR-COUNTERS and the events of the counters (R177, R179 to R181). -/

namespace Sys2Proof.Machine

section
variable {s : State}

/-! ### The groups of Table 10-5 -/

theorem counterBytes_lineGroup (c : Counters) :
    counterBytes c.lineGroup =
      groupBytes c
        [.framesGood, .framesBad, .attemptsFailed, .requestsSent, .requestsSuppressed, .repeatsSent,
          .duplicatesDiscarded, .jobsDropped] := rfl

theorem counterBytes_lossGroup (c : Counters) :
    counterBytes c.lossGroup =
      groupBytes c
        [.captureLost, .lateDropped, .forcedReleases, .holesCreated, .streamADropped, .streamBDropped,
          .urgentOverflows] := rfl

theorem Counter.isLoss_iff (k : Counter) :
    k.isLoss = true ↔
      k ∈ [Counter.captureLost, .lateDropped, .forcedReleases, .holesCreated, .streamADropped, .streamBDropped,
        .urgentOverflows] := by
  cases k <;> decide

/-! ### An event of a counter -/

theorem Counters.get_initial (k : Counter) : Counters.initial.get k = 0 := by
  cases k <;> rfl

theorem Counters.get_advance_self (c : Counters) (k : Counter) : (c.advance k).get k = saturate16 (c.get k) := by
  rw [Counters.get_advance, if_pos rfl]

theorem Counters.get_advance_of_ne (c : Counters) {k j : Counter} (h : j ≠ k) : (c.advance k).get j = c.get j := by
  rw [Counters.get_advance, if_neg h]

theorem Counters.get_advance_initial (k : Counter) : (Counters.initial.advance k).get k = 1 := by
  rw [Counters.get_advance_self, Counters.get_initial]
  rfl

/-! ### The two commands in an open transaction -/

theorem exec_readCounters_of_opened (h : s.host.stage = .opened) (group : Byte) :
    exec (.readCounters group) s = .next (s.readCounters group) :=
  congrArg Host.Outcome.next (State.take_of_opened _ h)

theorem State.readCounters_of_unlisted {group : Byte} (h0 : group ≠ 0) (h1 : group ≠ 1) :
    s.readCounters group = s.answer .outOfRange [] := by
  rw [State.readCounters, if_neg h0, if_neg h1]

theorem exec_readCounters_line (h : s.host.stage = .opened) :
    exec (.readCounters 0) s = .next (s.answer .ok (counterBytes s.counters.lineGroup)) :=
  exec_readCounters_of_opened h 0

theorem exec_readCounters_loss (h : s.host.stage = .opened) :
    exec (.readCounters 1) s =
      .next (({ s with lossAdvanced := false }).answer .ok (counterBytes s.counters.lossGroup)) :=
  exec_readCounters_of_opened h 1

theorem exec_clearCounters_of_opened (h : s.host.stage = .opened) :
    exec .clearCounters s = .next (({ s with counters := Counters.initial }).answer .ok []) :=
  congrArg Host.Outcome.next (State.take_of_opened _ h)

end

/-- Settles O14: the clear leaves every counter at 0 whatever stood before it; an event is `Counters.advance` on its own
counter. -/
theorem countersAdvanceAndClear : Obligations.CountersAdvanceAndClear := by
  constructor
  · intro s hopen
    refine ⟨{ s with counters := Counters.initial }, exec_clearCounters_of_opened hopen, Counters.get_initial, rfl,
      fun k => ?_, fun k => ⟨Counters.get_advance_initial k, rfl⟩⟩
    have hcount : (s.count k).host.stage = .opened := hopen
    exact exec_clearCounters_of_opened hcount
  · intro s k
    refine ⟨?_, fun j hj => Counters.get_advance_of_ne _ hj, ?_, rfl⟩
    · rw [State.counters_count, Counters.get_advance_self, saturate16_toNat]
    · rw [State.lossAdvanced_count, Bool.or_eq_true, Counter.isLoss_iff]

/-- Settles O13: each group is read in the order of Table 10-5, and a read after an event is a read in the state that the
event leaves. -/
theorem readCountersReply : Obligations.ReadCountersReply := by
  intro s hopen
  refine ⟨fun b h0 h1 => ?_, ?_, ?_, fun k => ⟨_, ?_, rfl⟩⟩
  · rw [exec_readCounters_of_opened hopen, State.readCounters_of_unlisted h0 h1]
  · rw [exec_readCounters_line hopen, counterBytes_lineGroup]
  · rw [exec_readCounters_loss hopen, counterBytes_lossGroup]
  · have hcount : (s.count k).host.stage = .opened := hopen
    rw [exec_readCounters_line hcount, counterBytes_lineGroup, State.counters_count]

end Sys2Proof.Machine
end

section
/-! PROOFS. The status byte (R170, Table 1-10). -/

namespace Sys2Proof.Machine

section
variable {s : State}

/-! ### The attention code -/

theorem State.causeEnabled_iff (n : Nat) :
    s.causeEnabled n = true ↔ s.causePending n = true ∧ s.setup.attentionMask.getLsbD (n - 1) = true :=
  Bool.and_eq_true_iff

/-- The search of R170 goes through the codes 1 to 7 in ascending order. -/
theorem State.attentionCode_eq_find : s.attentionCode = ((List.range' 1 7).find? s.causeEnabled).getD 0 := rfl

/-- The search ends at a code of Table 10-4 with none enabled below it, or finds none enabled. -/
theorem State.attentionCode_cases :
    (1 ≤ s.attentionCode ∧ s.attentionCode ≤ 7 ∧ s.causeEnabled s.attentionCode = true ∧
      ∀ m, 1 ≤ m → m < s.attentionCode → ¬s.causeEnabled m = true) ∨
    (s.attentionCode = 0 ∧ ∀ m, 1 ≤ m → m ≤ 7 → ¬s.causeEnabled m = true) := by
  rw [State.attentionCode_eq_find]
  cases hfind : (List.range' 1 7).find? s.causeEnabled with
  | some n =>
    obtain ⟨henabled, hmem, hbelow⟩ := List.find?_range'_eq_some.1 hfind
    obtain ⟨hlow, hhigh⟩ := List.mem_range'_1.1 hmem
    exact .inl ⟨hlow, by simpa using Nat.le_of_lt_succ hhigh, henabled, fun m h1 hm => by simpa using hbelow m h1 hm⟩
  | none =>
    exact .inr ⟨rfl, fun m h1 h7 => by simpa using List.find?_range'_eq_none.1 hfind m h1 (Nat.lt_succ_of_le h7)⟩

theorem State.attentionCode_le : s.attentionCode ≤ 7 := by
  obtain ⟨-, h, -⟩ | ⟨h, -⟩ := s.attentionCode_cases <;> omega

/-- R170: code `n` is reported exactly when its cause is the enabled one with the lowest code. -/
theorem State.attentionCode_eq_iff {n : Nat} (h1 : 1 ≤ n) (h7 : n ≤ 7) :
    s.attentionCode = n ↔ s.causeEnabled n = true ∧ ∀ m, 1 ≤ m → m < n → ¬s.causeEnabled m = true := by
  obtain ⟨hlow, hhigh, henabled, hbelow⟩ | ⟨hzero, hnone⟩ := s.attentionCode_cases
  · refine ⟨fun h => h ▸ ⟨henabled, hbelow⟩, fun ⟨hn, hmin⟩ => Nat.le_antisymm ?_ ?_⟩
    · exact Nat.le_of_not_lt fun hlt => hbelow n h1 hlt hn
    · exact Nat.le_of_not_lt fun hlt => hmin _ hlow hlt henabled
  · exact ⟨fun h => by omega, fun ⟨hn, _⟩ => absurd hn (hnone n h1 h7)⟩

theorem State.attentionCode_eq_zero_iff :
    s.attentionCode = 0 ↔ ∀ m, 1 ≤ m → m ≤ 7 → ¬s.causeEnabled m = true := by
  obtain ⟨hlow, hhigh, henabled, -⟩ | ⟨hzero, hnone⟩ := s.attentionCode_cases
  · exact ⟨fun h => by omega, fun h => absurd henabled (h _ hlow hhigh)⟩
  · exact ⟨fun _ => hnone, fun _ => hzero⟩

/-! ### The fields of the byte -/

theorem Mode.code_le (m : Mode) : m.code ≤ 4 := by
  cases m <;> decide

/-- Table 1-10: the fields fill the byte without overlap, so nothing of the sum is cut off. -/
theorem State.statusByte_toNat :
    s.statusByte.toNat = s.attentionCode + 8 * s.mode.code + if s.line.transmitter = .mute then 64 else 0 := by
  have hcode := s.attentionCode_le
  have hmode := s.mode.code_le
  refine (BitVec.toNat_ofNat _ _).trans (Nat.mod_eq_of_lt ?_)
  split <;> omega

theorem State.statusByte_codeBits : s.statusByte.toNat % 8 = s.attentionCode := by
  have hcode := s.attentionCode_le
  rw [State.statusByte_toNat]
  split <;> omega

theorem State.statusByte_modeBits : s.statusByte.toNat / 8 % 8 = s.mode.code := by
  have hcode := s.attentionCode_le
  have hmode := s.mode.code_le
  rw [State.statusByte_toNat]
  split <;> omega

theorem State.statusByte_muteBit : s.statusByte.getLsbD 6 = true ↔ s.line.transmitter = .mute := by
  have hcode := s.attentionCode_le
  have hmode := s.mode.code_le
  rw [BitVec.getLsbD, Nat.testBit_eq_decide_div_mod_eq, decide_eq_true_iff, State.statusByte_toNat]
  split
  · next hmute => exact ⟨fun _ => hmute, fun _ => by omega⟩
  · next hmute => exact ⟨fun h => by omega, fun h => absurd h hmute⟩

theorem State.statusByte_topBit : s.statusByte.getLsbD 7 = false := by
  have hcode := s.attentionCode_le
  have hmode := s.mode.code_le
  refine Nat.testBit_lt_two_pow ?_
  rw [State.statusByte_toNat]
  split <;> omega

theorem exec_transactionStart_of_idle (hidle : s.host.stage = .idle) (hreset : s.inReset = false) :
    exec .transactionStart s = .next { s with host := ⟨.opened, s.statusByte, []⟩ } := by
  show execTransactionStart s = _
  rw [execTransactionStart, if_pos hidle, hreset]
  rfl

end

/-- Settles O4: the byte latched is `State.statusByte`, and each of its fields is a lemma. -/
theorem statusByteReportsState : Obligations.StatusByteReportsState := by
  intro s hidle hreset
  refine ⟨s.statusByte, exec_transactionStart_of_idle hidle hreset, fun n h1 h7 => ?_, ?_, ?_,
    State.statusByte_muteBit, State.statusByte_topBit⟩
  · simp only [State.statusByte_codeBits, State.attentionCode_eq_iff h1 h7, State.causeEnabled_iff]
  · simp only [State.statusByte_codeBits, State.attentionCode_eq_zero_iff, State.causeEnabled_iff]
  · rw [State.statusByte_modeBits]
    cases s.mode <;> rfl

end Sys2Proof.Machine
end

section
/-! PROOFS. The setup items: the codings of their values, and SETUP-WRITE and SETUP-READ against
Table 10-2 (R171 to R173). -/

namespace Sys2Proof.Machine

/-! ### The codings of values -/

/-- `decode` reads exactly the numbers that `listed` gives, and `code` gives the number back. -/
structure Codes {α : Type} (code : α → Nat) (decode : Nat → Option α) (listed : Nat → Prop) : Prop where
  code_of_decode : ∀ {v x}, decode v = some x → code x = v
  isSome_iff : ∀ v, (decode v).isSome = true ↔ listed v

/-- A setup written with a decoded value reads back the number. -/
theorem Codes.get_written {α : Type} {code : α → Nat} {decode : Nat → Option α} {listed : Nat → Prop}
    (hcodes : Codes code decode listed) {write : α → Setup} {it : SetupItem} {i v : Nat} {d : Setup}
    (h : (decode v).map write = some d) (hread : ∀ x, (write x).get it i = code x) : d.get it i = v := by
  obtain ⟨x, hx, rfl⟩ := Option.map_eq_some_iff.1 h
  exact (hread x).trans (hcodes.code_of_decode hx)

theorem edgeSelectOf_codes : Codes EdgeSelect.code edgeSelectOf (· ≤ 3) where
  code_of_decode h := by unfold edgeSelectOf at h; split at h <;> cases h <;> rfl
  isSome_iff v := by unfold edgeSelectOf; split <;> simp_all; omega

theorem defaultActionOf_codes : Codes DefaultAction.code defaultActionOf (· ≤ 2) where
  code_of_decode h := by unfold defaultActionOf at h; split at h <;> cases h <;> rfl
  isSome_iff v := by unfold defaultActionOf; split <;> simp_all; omega

theorem latePolicyOf_codes : Codes LatePolicy.code latePolicyOf (· ≤ 1) where
  code_of_decode h := by unfold latePolicyOf at h; split at h <;> cases h <;> rfl
  isSome_iff v := by unfold latePolicyOf; split <;> simp_all; omega

theorem flagOf_codes : Codes (fun b => if b then 1 else 0) flagOf (· ≤ 1) where
  code_of_decode h := by unfold flagOf at h; split at h <;> cases h <;> rfl
  isSome_iff v := by unfold flagOf; split <;> simp_all; omega

theorem streamModeOf_codes : Codes StreamMode.code streamModeOf (· ≤ 1) where
  code_of_decode h := by unfold streamModeOf at h; split at h <;> cases h <;> rfl
  isSome_iff v := by unfold streamModeOf; split <;> simp_all; omega

theorem thresholdOf_codes : Codes Threshold.toNat thresholdOf fun v => v = 1 ∨ v = 4 ∨ v = 16 ∨ v = 48 where
  code_of_decode h := by unfold thresholdOf at h; split at h <;> cases h <;> rfl
  isSome_iff v := by unfold thresholdOf; split <;> simp_all

theorem ruleKindOf_codes : Codes RuleKind.code ruleKindOf (· ≤ 3) where
  code_of_decode h := by unfold ruleKindOf at h; split at h <;> cases h <;> rfl
  isSome_iff v := by unfold ruleKindOf; split <;> simp_all; omega

theorem actionOf_codes : Codes Action.code actionOf (· ≤ 3) where
  code_of_decode h := by unfold actionOf at h; split at h <;> cases h <;> rfl
  isSome_iff v := by unfold actionOf; split <;> simp_all; omega

theorem inRange_codes (lo hi : Nat) : Codes id (inRange lo hi) fun v => lo ≤ v ∧ v ≤ hi where
  code_of_decode h := by cases (Option.ite_none_right_eq_some.1 h).2; rfl
  isSome_iff v := by simp [inRange]

/-- A value read from a range that a word of `w` bits holds stands whole in the word. -/
theorem toNat_ofNat_of_inRange {w lo hi v x : Nat} (hw : hi < 2 ^ w) (h : inRange lo hi v = some x) :
    (BitVec.ofNat w x).toNat = v := by
  obtain ⟨⟨-, hv⟩, hx⟩ := Option.ite_none_right_eq_some.1 h
  cases hx
  exact (BitVec.toNat_ofNat _ _).trans (Nat.mod_eq_of_lt (hv.trans_lt hw))

theorem keyOf_codes : Codes BitVec.toNat keyOf (· ≤ 262143) where
  code_of_decode {v x} h := by
    obtain ⟨hlt, hx⟩ := Option.ite_none_right_eq_some.1 h
    cases hx
    exact (BitVec.toNat_ofNat _ _).trans (Nat.mod_eq_of_lt hlt)
  isSome_iff v := by simp [keyOf]; omega

/-! ### Item numbers -/

/-- Table 10-2: the number of an item. -/
def SetupItem.number : SetupItem → Nat
  | .station => 1
  | .incarnation => 2
  | .clockDivider => 3
  | .bitTime => 4
  | .slotWidth => 5
  | .delayCompensation => 6
  | .beaconInterval => 7
  | .silenceTimeout => 8
  | .expelTimeout => 9
  | .agreementPeriod => 10
  | .precisionBound => 11
  | .stepLimit => 12
  | .requestTimeout => 13
  | .maxTries => 14
  | .debounce => 15
  | .edges => 16
  | .defaultAction => 23
  | .latePolicy => 24
  | .holesToB => 25
  | .streamMode => 26
  | .streamThreshold => 27
  | .streamIdleTimeout => 28
  | .attentionMask => 29
  | .rule r => 64 + r.val

theorem setupItem_rule (r : Fin 48) : setupItem (64 + r.val) = some (.rule r) := by
  have hrange : 64 ≤ 64 + r.val ∧ 64 + r.val < 112 := by omega
  refine (dif_pos hrange).trans (congrArg (fun q => some (SetupItem.rule q)) (Fin.ext ?_))
  exact Nat.add_sub_cancel_left 64 r.val

theorem setupItem_number (it : SetupItem) : setupItem it.number = some it := by
  cases it with
  | rule r => exact setupItem_rule r
  | _ => rfl

theorem number_of_setupItem {n : Nat} {it : SetupItem} (h : setupItem n = some it) : it.number = n := by
  unfold setupItem at h
  split at h
  · next hrule =>
    cases h
    exact Nat.add_sub_cancel' hrule.1
  · split at h <;> cases h <;> rfl

/-- R172 checks 2 and 3. -/
theorem addressedItem_eq_some_iff {item index : Byte} {it : SetupItem} :
    addressedItem item index = some it ↔ it.number = item.toNat ∧ index.toNat < it.indices := by
  unfold addressedItem
  constructor
  · intro h
    split at h
    · next jt hitem =>
      obtain ⟨hindex, hjt⟩ := Option.ite_none_right_eq_some.1 h
      cases hjt
      exact ⟨number_of_setupItem hitem, hindex⟩
    · cases h
  · rintro ⟨hnumber, hindex⟩
    rw [← hnumber, setupItem_number]
    exact if_pos hindex

/-! ### The table, item by item -/

/-- A number at which Table 10-2 gives a value is that of an item. -/
theorem tableAllows_of_setupItem_none {n : Nat} (h : setupItem n = none) (i v : Nat) : tableAllows n i v = false := by
  unfold tableAllows
  split
  · next hrule =>
    have hitem := setupItem_rule ⟨n - 64, by omega⟩
    rw [Nat.add_sub_cancel' hrule.1, h] at hitem
    cases hitem
  · split
    case h_24 => rfl
    all_goals cases h

theorem tableDefault_of_rule (r : Fin 48) : tableDefault (64 + r.val) = 0 := by
  unfold tableDefault
  split <;> omega

theorem tableAllows_rule (r : Fin 48) (rule : Rule) (field v : Nat) :
    tableAllows (64 + r.val) field v = true ↔ field < 6 ∧ (rule.put field v).isSome = true := by
  have hrange : 64 ≤ 64 + r.val ∧ 64 + r.val ≤ 111 := by omega
  unfold tableAllows Rule.put
  rw [if_pos hrange]
  split <;> simp [ruleKindOf_codes.isSome_iff, keyOf_codes.isSome_iff, actionOf_codes.isSome_iff,
    flagOf_codes.isSome_iff]
  omega

/-- R172 checks 3 and 4 take exactly what Table 10-2 gives for the item. -/
theorem tableAllows_number_iff (c : Setup) (it : SetupItem) (i v : Nat) :
    tableAllows it.number i v = true ↔ i < it.indices ∧ (c.put it i v).isSome = true := by
  have hstation : v < 32 ↔ v ≤ 31 := by omega
  have hinput : i < 16 ↔ i ≤ 15 := by omega
  cases it with
  | rule r =>
    rw [Setup.put, Option.isSome_map]
    exact tableAllows_rule r _ i v
  | _ =>
    simp [hstation, hinput, tableAllows, SetupItem.number, SetupItem.indices, Setup.put, (inRange_codes _ _).isSome_iff,
      edgeSelectOf_codes.isSome_iff, defaultActionOf_codes.isSome_iff, latePolicyOf_codes.isSome_iff,
      flagOf_codes.isSome_iff, streamModeOf_codes.isSome_iff, thresholdOf_codes.isSome_iff]

/-- R171: a default of Table 10-2 is one of the values that the table gives. -/
theorem tableAllows_tableDefault {it : SetupItem} {i : Nat} (h : i < it.indices) :
    tableAllows it.number i (tableDefault it.number) = true := by
  cases it with
  | rule r =>
    show tableAllows (64 + r.val) i (tableDefault (64 + r.val)) = true
    have hfield : i < 6 := h
    rw [tableDefault_of_rule, tableAllows_rule r .initial]
    exact ⟨hfield, by interval_cases i <;> rfl⟩
  | _ => simpa [tableAllows, tableDefault, SetupItem.number] using Nat.le_of_lt_succ h

/-- Table 10-2 gives values for exactly the items and indices that R172 takes. -/
theorem tableAllows_iff (c : Setup) (item index : Byte) (v : Nat) :
    tableAllows item.toNat index.toNat v = true ↔
      ∃ it, addressedItem item index = some it ∧ (c.put it index.toNat v).isSome = true := by
  constructor
  · intro h
    cases hitem : setupItem item.toNat with
    | none => simp [tableAllows_of_setupItem_none hitem] at h
    | some it =>
      have hnumber := number_of_setupItem hitem
      rw [← hnumber, tableAllows_number_iff c] at h
      exact ⟨it, addressedItem_eq_some_iff.2 ⟨hnumber, h.1⟩, h.2⟩
  · rintro ⟨it, hit, hput⟩
    obtain ⟨hnumber, hindex⟩ := addressedItem_eq_some_iff.1 hit
    rw [← hnumber]
    exact (tableAllows_number_iff c it _ v).2 ⟨hindex, hput⟩

/-- A number or index for which Table 10-2 gives no value is refused by R172 checks 2 and 3. -/
theorem addressedItem_eq_none {item index : Byte} (h : ∀ v, tableAllows item.toNat index.toNat v = false) :
    addressedItem item index = none := by
  refine Option.eq_none_iff_forall_ne_some.2 fun it hit => ?_
  obtain ⟨hnumber, hindex⟩ := addressedItem_eq_some_iff.1 hit
  have hdefault := tableAllows_tableDefault hindex
  rw [hnumber, h] at hdefault
  cases hdefault

/-! ### A write replaces the one item it names -/

section
variable {c d : Setup} {it jt : SetupItem} {i j v : Nat}

theorem Setup.stream_setStream (c : Setup) (id k : StreamId) (x : StreamSetup) :
    (c.setStream id x).stream k = if k = id then x else c.stream k := by
  cases id <;> cases k <;> rfl

theorem Setup.stream_setStream_self {id : StreamId} {x : StreamSetup} : (c.setStream id x).stream id = x := by
  rw [Setup.stream_setStream, if_pos rfl]

theorem indexIn_val {n i : Nat} [NeZero n] (h : i < n) : (indexIn n i).val = i := Nat.mod_eq_of_lt h

theorem streamOf_inj {m n : Nat} (hm : m < 2) (hn : n < 2) (h : streamOf m = streamOf n) : m = n := by
  interval_cases m <;> interval_cases n <;> trivial

/-- A field of a stream that a replacement keeps. -/
theorem Setup.stream_setStream_field {α : Type} (field : StreamSetup → α) {id : StreamId} {x : StreamSetup}
    (h : field x = field (c.stream id)) (k : StreamId) :
    field ((c.setStream id x).stream k) = field (c.stream k) := by
  rw [Setup.stream_setStream]
  split
  · next hk => rw [h, hk]
  · rfl

/-- Replacing a stream's setup values moves no item whose field of the stream stays. -/
theorem Setup.get_setStream {id : StreamId} {x : StreamSetup}
    (hmode : jt = .streamMode → x.mode = (c.stream id).mode)
    (hthreshold : jt = .streamThreshold → x.threshold = (c.stream id).threshold)
    (hidle : jt = .streamIdleTimeout → x.idleTimeout = (c.stream id).idleTimeout) :
    (c.setStream id x).get jt j = c.get jt j := by
  cases jt with
  | streamMode => exact congrArg StreamMode.code (Setup.stream_setStream_field (·.mode) (hmode rfl) _)
  | streamThreshold =>
    exact congrArg Threshold.toNat (Setup.stream_setStream_field (·.threshold) (hthreshold rfl) _)
  | streamIdleTimeout => exact Setup.stream_setStream_field (·.idleTimeout) (hidle rfl) _
  | _ => cases id <;> rfl

/-- Replacing a stream's setup values moves no item of the other stream. -/
theorem Setup.get_setStream_of_ne {id : StreamId} {x : StreamSetup} (h : streamOf j ≠ id) :
    (c.setStream id x).get jt j = c.get jt j := by
  have hstream : (c.setStream id x).stream (streamOf j) = c.stream (streamOf j) := by
    rw [Setup.stream_setStream, if_neg h]
  cases jt with
  | streamMode => exact congrArg (fun y => StreamMode.code y.mode) hstream
  | streamThreshold => exact congrArg (fun y => Threshold.toNat y.threshold) hstream
  | streamIdleTimeout => exact congrArg StreamSetup.idleTimeout hstream
  | _ => cases id <;> rfl

theorem Rule.get_put_self {r q : Rule} (hi : i < 6) (h : r.put i v = some q) : q.get i = v := by
  interval_cases i
  pick_goal 5
  · obtain ⟨hv, hq⟩ := Option.dite_none_right_eq_some.1 h
    cases hq
    rfl
  all_goals obtain ⟨x, hx, rfl⟩ := Option.map_eq_some_iff.1 h
  · exact ruleKindOf_codes.code_of_decode hx
  · exact keyOf_codes.code_of_decode hx
  · exact keyOf_codes.code_of_decode hx
  · exact actionOf_codes.code_of_decode hx
  · exact flagOf_codes.code_of_decode hx

theorem Rule.get_put_of_ne {r q : Rule} (hi : i < 6) (hj : j < 6) (hne : j ≠ i) (h : r.put i v = some q) :
    q.get j = r.get j := by
  interval_cases i
  pick_goal 5
  · obtain ⟨hv, hq⟩ := Option.dite_none_right_eq_some.1 h
    cases hq
    interval_cases j <;> trivial
  all_goals
    obtain ⟨x, -, rfl⟩ := Option.map_eq_some_iff.1 h
    interval_cases j <;> trivial

/-- R172, R173: an item written reads back the value. -/
theorem Setup.get_put_self (hi : i < it.indices) (h : c.put it i v = some d) : d.get it i = v := by
  cases it with
  | station =>
    obtain ⟨hv, hd⟩ := Option.dite_none_right_eq_some.1 h
    cases hd
    rfl
  | rule r =>
    obtain ⟨q, hq, rfl⟩ := Option.map_eq_some_iff.1 h
    exact (congrArg (Rule.get · i) (Vector.getElem_set_self _)).trans (Rule.get_put_self hi hq)
  | incarnation | attentionMask =>
    obtain ⟨x, hx, rfl⟩ := Option.map_eq_some_iff.1 h
    exact toNat_ofNat_of_inRange (by decide) hx
  | edges =>
    exact edgeSelectOf_codes.get_written h fun _ => congrArg EdgeSelect.code (Vector.getElem_set_self _)
  | defaultAction => exact defaultActionOf_codes.get_written h fun _ => rfl
  | latePolicy => exact latePolicyOf_codes.get_written h fun _ => rfl
  | holesToB => exact flagOf_codes.get_written h fun _ => rfl
  | streamMode =>
    exact streamModeOf_codes.get_written h fun _ =>
      congrArg (fun y : StreamSetup => y.mode.code) Setup.stream_setStream_self
  | streamThreshold =>
    exact thresholdOf_codes.get_written h fun _ =>
      congrArg (fun y : StreamSetup => y.threshold.toNat) Setup.stream_setStream_self
  | streamIdleTimeout =>
    exact (inRange_codes _ _).get_written h fun _ =>
      congrArg StreamSetup.idleTimeout Setup.stream_setStream_self
  | _ => exact (inRange_codes _ _).get_written h fun _ => rfl

/-- R172: a write of one item changes the value of no other item, because no other item is read from the field
written. -/
theorem Setup.get_put_of_item_ne (hne : jt ≠ it) (h : c.put it i v = some d) : d.get jt j = c.get jt j := by
  cases it with
  | station =>
    obtain ⟨hv, hd⟩ := Option.dite_none_right_eq_some.1 h
    cases hd
    cases jt <;> trivial
  | rule r =>
    obtain ⟨q, -, rfl⟩ := Option.map_eq_some_iff.1 h
    cases jt with
    | rule p =>
      have hval : r.val ≠ p.val := fun hval => hne (congrArg SetupItem.rule (Fin.ext hval.symm))
      exact congrArg (Rule.get · j) (Vector.getElem_set_ne r.isLt p.isLt hval)
    | _ => rfl
  | streamMode =>
    obtain ⟨x, -, rfl⟩ := Option.map_eq_some_iff.1 h
    exact Setup.get_setStream (fun heq => absurd heq hne) (fun _ => rfl) (fun _ => rfl)
  | streamThreshold =>
    obtain ⟨x, -, rfl⟩ := Option.map_eq_some_iff.1 h
    exact Setup.get_setStream (fun _ => rfl) (fun heq => absurd heq hne) (fun _ => rfl)
  | streamIdleTimeout =>
    obtain ⟨x, -, rfl⟩ := Option.map_eq_some_iff.1 h
    exact Setup.get_setStream (fun _ => rfl) (fun _ => rfl) (fun heq => absurd heq hne)
  | _ =>
    obtain ⟨x, -, rfl⟩ := Option.map_eq_some_iff.1 h
    cases jt <;> trivial

/-- R172: a write of an item at one index changes the item's value at no other index. -/
theorem Setup.get_put_of_index_ne (hi : i < it.indices) (hj : j < it.indices) (hne : j ≠ i)
    (h : c.put it i v = some d) : d.get it j = c.get it j := by
  cases it with
  | rule r =>
    obtain ⟨q, hq, rfl⟩ := Option.map_eq_some_iff.1 h
    exact (congrArg (Rule.get · j) (Vector.getElem_set_self _)).trans (Rule.get_put_of_ne hi hj hne hq)
  | edges =>
    obtain ⟨x, -, rfl⟩ := Option.map_eq_some_iff.1 h
    have hval : (indexIn 16 i).val ≠ (indexIn 16 j).val := by
      rw [indexIn_val (n := 16) hi, indexIn_val (n := 16) hj]
      exact hne.symm
    exact congrArg EdgeSelect.code (Vector.getElem_set_ne (indexIn 16 i).isLt (indexIn 16 j).isLt hval)
  | streamMode | streamThreshold | streamIdleTimeout =>
    obtain ⟨x, -, rfl⟩ := Option.map_eq_some_iff.1 h
    exact Setup.get_setStream_of_ne fun heq => hne (streamOf_inj hj hi heq)
  | _ =>
    exact absurd ((Nat.lt_one_iff.1 hj).trans (Nat.lt_one_iff.1 hi).symm) hne

end

/-! ### Defaults and sessions -/

theorem Setup.get_initial {it : SetupItem} {i : Nat} (h : i < it.indices) :
    Setup.initial.get it i = tableDefault it.number := by
  cases it with
  | rule r =>
    have hfield : i < 6 := h
    refine Eq.trans (congrArg (Rule.get · i) (Vector.getElem_replicate r.isLt)) ?_
    refine Eq.trans ?_ (tableDefault_of_rule r).symm
    interval_cases i <;> rfl
  | edges => exact congrArg EdgeSelect.code (Vector.getElem_replicate (indexIn 16 i).isLt)
  | streamMode | streamThreshold | streamIdleTimeout =>
    have hstream : i < 2 := h
    interval_cases i <;> rfl
  | _ => rfl

/-! ### The two commands in an open transaction -/

section
variable {s : State} {item index : Byte} {v : BitVec 32} {it : SetupItem}

theorem State.take_inMode_of_eq (h : s.host.stage = .opened) {m : Mode} (hmode : s.mode = m) (f : State → State) :
    (s.take fun s => s.inMode (s.mode == m) f) = f s :=
  (State.take_of_opened _ h).trans (if_pos (by simpa using hmode))

theorem State.take_inMode_of_ne (h : s.host.stage = .opened) {m : Mode} (hmode : s.mode ≠ m) (f : State → State) :
    (s.take fun s => s.inMode (s.mode == m) f) = s.answer .notNow [] :=
  (State.take_of_opened _ h).trans (if_neg (by simpa using hmode))

theorem exec_setupWrite_of_ne_setup (h : s.host.stage = .opened) (hmode : s.mode ≠ .setup) :
    exec (.setupWrite item index v) s = .next (s.answer .notNow []) :=
  congrArg Host.Outcome.next (State.take_inMode_of_ne h hmode _)

theorem exec_setupWrite_of_setup (h : s.host.stage = .opened) (hmode : s.mode = .setup) :
    exec (.setupWrite item index v) s = .next (s.setupWrite item index v) :=
  congrArg Host.Outcome.next (State.take_inMode_of_eq h hmode _)

theorem exec_setupRead_of_ne_setup (h : s.host.stage = .opened) (hmode : s.mode ≠ .setup) :
    exec (.setupRead item index) s = .next (s.answer .notNow []) :=
  congrArg Host.Outcome.next (State.take_inMode_of_ne h hmode _)

theorem exec_setupRead_of_setup (h : s.host.stage = .opened) (hmode : s.mode = .setup) :
    exec (.setupRead item index) s = .next (s.setupRead item index) :=
  congrArg Host.Outcome.next (State.take_inMode_of_eq h hmode _)

theorem State.setupWrite_of_put {c : Setup} (hit : addressedItem item index = some it)
    (hput : s.setup.put it index.toNat v.toNat = some c) :
    s.setupWrite item index v = ({ s with setup := c }).answer .ok [] := by
  simp only [State.setupWrite, hit, hput]

/-- R172: a write that one of the checks 2 to 4 refuses. -/
theorem State.setupWrite_of_refused (h : tableAllows item.toNat index.toNat v.toNat = false) :
    s.setupWrite item index v = s.answer .outOfRange [] := by
  unfold State.setupWrite
  split
  · rfl
  · next it hit =>
    split
    · rfl
    · next c hput =>
      have hallows := (tableAllows_iff s.setup item index v.toNat).2 ⟨it, hit, Option.isSome_of_eq_some hput⟩
      rw [h] at hallows
      cases hallows

theorem State.setupRead_of_some (hit : addressedItem item index = some it) :
    s.setupRead item index = s.answer .ok (leBytes 4 (s.setup.get it index.toNat)) := by
  simp only [State.setupRead, hit]

theorem State.setupRead_of_none (hit : addressedItem item index = none) :
    s.setupRead item index = s.answer .outOfRange [] := by
  simp only [State.setupRead, hit]

/-- R172: what a write answered OK leaves: the item addressed holds the value, every other holds its own. -/
theorem Setup.get_put {c d : Setup} {n : Nat} (hit : addressedItem item index = some it)
    (hput : c.put it index.toNat n = some d) :
    d.get it index.toNat = n ∧
      ∀ (item' index' : Byte) jt, addressedItem item' index' = some jt → (item', index') ≠ (item, index) →
        d.get jt index'.toNat = c.get jt index'.toNat := by
  obtain ⟨hnumber, hindex⟩ := addressedItem_eq_some_iff.1 hit
  refine ⟨Setup.get_put_self hindex hput, fun item' index' jt hjt hne => ?_⟩
  obtain ⟨hnumber', hindex'⟩ := addressedItem_eq_some_iff.1 hjt
  by_cases hsame : jt = it
  · subst hsame
    refine Setup.get_put_of_index_ne hindex hindex' (fun heq => hne (Prod.ext ?_ (BitVec.eq_of_toNat_eq heq))) hput
    exact BitVec.eq_of_toNat_eq (hnumber'.symm.trans hnumber)
  · exact Setup.get_put_of_item_ne hsame hput

end

/-- Settles O15: `tableAllows_iff` ties the checks of R172 to Table 10-2, and `Setup.get_put` says what a write leaves. -/
theorem setupItemsFollowTable : Obligations.SetupItemsFollowTable := by
  intro s item index hopen
  refine ⟨fun v => ⟨exec_setupWrite_of_ne_setup hopen, fun hmode hrefused => ?_, fun hmode hallows => ?_⟩,
    exec_setupRead_of_ne_setup hopen, fun hmode hunlisted => ?_, fun v hallows => ?_⟩
  · rw [exec_setupWrite_of_setup hopen hmode, State.setupWrite_of_refused hrefused]
  · obtain ⟨it, hit, hsome⟩ := (tableAllows_iff s.setup item index v.toNat).1 hallows
    obtain ⟨c, hput⟩ := Option.isSome_iff_exists.1 hsome
    obtain ⟨hself, hothers⟩ := Setup.get_put hit hput
    refine ⟨c, ?_, fun jt hjt => ?_, hothers⟩
    · rw [exec_setupWrite_of_setup hopen hmode, State.setupWrite_of_put hit hput]
    · cases hit.symm.trans hjt
      exact hself
  · rw [exec_setupRead_of_setup hopen hmode, State.setupRead_of_none (addressedItem_eq_none hunlisted)]
  · obtain ⟨it, hit, -⟩ := (tableAllows_iff s.setup item index v).1 hallows
    obtain ⟨hnumber, hindex⟩ := addressedItem_eq_some_iff.1 hit
    refine ⟨it, hit, fun hmode => ?_, ?_, rfl⟩
    · rw [exec_setupRead_of_setup hopen hmode, State.setupRead_of_some hit]
    · rw [← hnumber]
      exact Setup.get_initial hindex

end Sys2Proof.Machine
end

section
/-! PROOFS. What a command can do: one inversion of `exec`, from which the invariants are read, and that every command
completes. -/

namespace Sys2Proof.Machine

/-! ### The work of a command, and how a command finishes -/

/-- What a command does to the state before its reply is prepared and before R follows the horizon, with the condition
under which it does so. -/
inductive Work (s : State) : State → Prop where
  | nothing : Work s s
  | reset (host : HostPort) (inReset : Bool) : Work s { s.fullReset with host := host, inReset := inReset }
  | port (host : HostPort) : Work s { s with host := host }
  | restartIdleTimer (id : StreamId) : Work s (s.restartIdleTimer id)
  | readEntries (id : StreamId) (max : Nat) (hentries : (s.stream id).entries ≠ []) : Work s (s.readEntries id max)
  | readSlot (n : SlotNo) (x : Latch) (hslot : s.journal.latches[n.val] = some x) :
      Work s { s with
        journal := { s.journal with latches := s.journal.latches.set n.val (some { x with fresh := false }) } }
  | readUrgent (n : Note) (rest : List Note) (hnotes : s.urgent.notes = n :: rest) :
      Work s { s with urgent := ⟨rest, s.urgent.overflow && !rest.isEmpty⟩ }
  | clearMarks : Work s s.clearMarks
  | clearClockChanged : Work s { s with clockChanged := false }
  | clearLossAdvanced : Work s { s with lossAdvanced := false }
  | clearCounters : Work s { s with counters := Counters.initial }
  | writeSetup (c : Setup) (hmode : s.mode = .setup) : Work s { s with setup := c }
  | startSession (hmode : s.mode = .setup) : Work s s.startSession
  | submit (channel : Channel) (code : Byte) (unsure : Bool) (value : Option (BitVec 16)) (hmode : s.mode = .active)
      (hroom : s.outqFull = false) : Work s (s.createOwn channel code s.st unsure value)
  | unmute : Work s { s with line := s.line.unmute }
  | startLeaving (hmode : s.mode = .active) : Work s s.startLeaving
  | endSession : Work s s.endSession
  | endOwnFrame (surplus : Bool) (hend : s.atFrameEnd = true) : Work s (s.endOwnFrame surplus)
  | endUnreadFrame (hend : s.atFrameEnd = true) : Work s s.endUnreadFrame
  | endMalformedFrame (sender : Station) (hend : s.atFrameEnd = true) : Work s (s.endMalformedFrame sender).tryActive
  | duplicateNumber (hend : s.atFrameEnd = true) : Work s (s.endGoodFrame s.own).stop
  | takeGoodFrame (f : Frame) (stamp stampL : Time) (hend : s.atFrameEnd = true) (hpeer : f.sender ≠ s.own) :
      Work s ((s.endGoodFrame f.sender).handOn f stamp stampL).tryActive
  | passOpportunity (hmode : s.mode.onLine = true) : Work s s.passOpportunity
  | startFrame (body : Body) (covered : List (Station × Seq)) (hmay : s.maySend = true) :
      Work s (s.passOpportunity.startFrame body covered)
  | completeFrame (f : Flight) (hflight : s.line.flight = some f) : Work s (s.completeFrame f)
  | failAttempt (bit : Nat) (f : Flight) (hflight : s.line.flight = some f) :
      Work s { s.count .attemptsFailed with line := s.line.failAttempt bit }
  | countRotation (hmode : s.mode.onLine = true) : Work s ({ s with line := s.countRotation } : State).observe.tryActive
  | openFrame (p : Phase) (f : Fall) (hmode : s.mode.onLine = true) (hidle : s.line.lineState = .idle) :
      Work s { s with
        line := { s.line.restartIdle with lineState := .receiving, receiver := .openAt p f } }
  | takeRelease (rested : Nat) (hmode : s.mode.onLine = true) : Work s { s with line := s.line.takeRelease rested }
  | increment (inputs : BitVec 16) (level : Bool) : Work s (s.settle.increment inputs level)
  | takePoint (point : Time) (hmode : s.mode.onLine = true) : Work s (s.takePoint point).tryActive
  | peerLeaves (i : Station) (hmode : s.mode.onLine = true) (hpeer : i ≠ s.own) : Work s (s.peerLeaves i)
  | fallSilent (i : Station) (hmode : s.mode.onLine = true) (hpeer : i ≠ s.own) (hlive : (s.entry i).state = .live) :
      Work s (s.fallSilent i)
  | confirmCapture (i : InputNo) (p : PendingEdge) (hmode : s.mode = .active) : Work s (s.confirmCapture i p)
  | beaconExpiry (hmode : s.mode.onLine = true) :
      Work s { s with outbound := { s.outbound with beaconTimer := none, beaconDue := true } }
  | takeDeadline (g : Gap) (hmode : s.mode.onLine = true) (hgap : g ∈ s.sequencer.gaps) : Work s (s.takeDeadline g)
  | idleExpiry (id : StreamId) (expiry : Time) (htimer : (s.stream id).idleTimer = some expiry) :
      Work s (s.setStream id
        { s.stream id with
          timeout := (s.stream id).timeout || !(s.stream id).entries.isEmpty
          idleTimer := none })
  | setInput (i : InputNo) (level : Bool) : Work s (s.setInput s.capture.levels i level)
  | cancelEdge (i : InputNo) (level : Bool) (p : PendingEdge) (hpending : s.pendingEdge i = some p) :
      Work s ((s.setInput s.capture.levels i level).setPendingEdge i none)
  | startEdge (i : InputNo) (level : Bool) (hmode : s.mode = .active) :
      Work s ((s.setInput s.capture.levels i level).startPending i level)

/-- How a command finishes its work: with nothing more, with R following the horizon, or with a reply. -/
inductive Finish (u : State) : State → Prop where
  | plain : Finish u u
  | settled : Finish u u.settle
  | answered (r : Result) (data : List Byte) : Finish u (u.answer r data)

/-- `o` is a next state that some work and its finish lead to. -/
def Completes (s : State) (o : Next) : Prop := ∃ u t, Work s u ∧ Finish u t ∧ o = .next t

section
variable {s u : State}

theorem Work.plain (h : Work s u) : Completes s (.next u) := ⟨u, u, h, .plain, rfl⟩

theorem Work.settled (h : Work s u) : Completes s (.next u.settle) := ⟨u, _, h, .settled, rfl⟩

theorem Work.answered (h : Work s u) (r : Result) (data : List Byte) : Completes s (.next (u.answer r data)) :=
  ⟨u, _, h, .answered r data, rfl⟩

theorem Completes.refl (s : State) : Completes s (.next s) := Work.nothing.plain

/-- A reply that is all a command does. -/
theorem Completes.refuse (s : State) (r : Result) (data : List Byte) : Completes s (.next (s.answer r data)) :=
  Work.nothing.answered r data

/-- A host command outside an open transaction does nothing. -/
theorem Completes.take {f : State → State} (h : Completes s (.next (f s))) : Completes s (.next (s.take f)) := by
  unfold State.take
  split
  · exact h
  · exact Completes.refl s

/-- A host command outside its mode is refused. -/
theorem Completes.inMode {m : Mode} {f : State → State} (h : s.mode = m → Completes s (.next (f s))) :
    Completes s (.next (s.inMode (s.mode == m) f)) := by
  unfold State.inMode
  split
  · next hm => exact h (by simpa using hm)
  · exact Completes.refuse s _ _

end

/-! ### Each command -/

section
variable (s : State)

theorem execFullReset_completes (rst : ResetLine) : Completes s (execFullReset rst s) := by
  cases rst with
  | held => exact (Work.reset _ true).plain
  | released cs => exact (Work.reset _ false).plain

theorem execTransactionStart_completes : Completes s (execTransactionStart s) := by
  unfold execTransactionStart
  split
  · split
    · exact (Work.port _).plain
    · exact (Work.port _).plain
  · exact Completes.refl s

theorem readStream_completes (stream max : Byte) : Completes s (.next (s.readStream stream max)) := by
  unfold State.readStream
  split
  · exact Completes.refuse s _ _
  · split
    · exact Completes.refuse s _ _
    · split
      · exact (Work.restartIdleTimer _).answered _ _
      · next hentries => exact (Work.readEntries _ _ hentries).plain

theorem readLatch_completes (slot : Byte) : Completes s (.next (s.readLatch slot)) := by
  unfold State.readLatch
  split
  · unfold State.readSlot
    split
    · exact Completes.refuse s _ _
    · next hslot => exact (Work.readSlot _ _ hslot).answered _ _
  · exact Completes.refuse s _ _

theorem readUrgent_completes : Completes s (.next s.readUrgent) := by
  unfold State.readUrgent
  split
  · exact Completes.refuse s _ _
  · next hnotes => exact (Work.readUrgent _ _ hnotes).answered _ _

theorem readRoster_completes (station : Byte) : Completes s (.next (s.readRoster station)) := by
  unfold State.readRoster
  split
  · exact Completes.refuse s _ _
  · exact Completes.refuse s _ _

theorem readCounters_completes (group : Byte) : Completes s (.next (s.readCounters group)) := by
  unfold State.readCounters
  split
  · exact Completes.refuse s _ _
  · split
    · exact Work.clearLossAdvanced.answered _ _
    · exact Completes.refuse s _ _

theorem setupWrite_completes (hmode : s.mode = .setup) (item index : Byte) (value : BitVec 32) :
    Completes s (.next (s.setupWrite item index value)) := by
  unfold State.setupWrite
  split
  · exact Completes.refuse s _ _
  · split
    · exact Completes.refuse s _ _
    · exact (Work.writeSetup _ hmode).answered _ _

theorem setupRead_completes (item index : Byte) : Completes s (.next (s.setupRead item index)) := by
  unfold State.setupRead
  split
  · exact Completes.refuse s _ _
  · exact Completes.refuse s _ _

theorem commit_completes (hmode : s.mode = .setup) : Completes s (.next s.commit) := by
  unfold State.commit
  split
  · exact Completes.refuse s _ _
  · exact (Work.startSession hmode).answered _ _

theorem submit_completes (hmode : s.mode = .active) (channel code flags : Byte) (value : BitVec 16) :
    Completes s (.next (s.submit channel code flags value)) := by
  unfold State.submit
  split
  · split
    · exact Completes.refuse s _ _
    · next hroom => exact (Work.submit _ _ _ _ hmode (by simpa using hroom)).answered _ _
  · exact Completes.refuse s _ _

theorem execBadCommand_completes (byte : Byte) : Completes s (execBadCommand byte s) := by
  unfold execBadCommand
  split
  · exact Completes.refl s
  · exact Completes.take (Completes.refuse s _ _)

theorem takeFrame_completes (hend : s.atFrameEnd = true) (c : FrameClass) (stamp stampL : Time) :
    Completes s (.next (s.takeFrame c stamp stampL)) := by
  unfold State.takeFrame
  split
  · exact (Work.endUnreadFrame hend).plain
  · exact (Work.endUnreadFrame hend).plain
  · exact (Work.endMalformedFrame _ hend).settled
  · split
    · next hown => rw [hown]; exact (Work.duplicateNumber hend).plain
    · next hpeer => exact (Work.takeGoodFrame _ _ _ hend hpeer).settled

theorem execFrameEnd_completes (bytes : List Byte) (framingError : Bool) :
    Completes s (execFrameEnd bytes framingError s) := by
  unfold execFrameEnd
  split
  · next h =>
    unfold State.frameEnd
    split
    · exact (Work.endOwnFrame _ h.1).plain
    · exact takeFrame_completes s h.1 _ _ _
  · exact Completes.refl s

theorem State.onLine_of_atOpportunity {s : State} (h : s.atOpportunity = true) : s.mode.onLine = true := by
  simp only [State.atOpportunity, Bool.and_eq_true] at h
  exact h.1.1.1.1

theorem execOpportunity_completes : Completes s (execOpportunity s) := by
  unfold execOpportunity
  split
  · next hat =>
    have hmode := State.onLine_of_atOpportunity hat
    unfold State.useOpportunity
    split
    · next hmay =>
      split
      · exact (Work.startFrame (s := s) _ _ hmay).plain
      · exact (Work.passOpportunity hmode).plain
    · exact (Work.passOpportunity hmode).plain
  · exact Completes.refl s

theorem execCompletion_completes : Completes s (execCompletion s) := by
  unfold execCompletion
  split
  · exact Completes.refl s
  · next f hflight =>
    split
    · split
      · have hend : (s.completeFrame f).endSession = s.endSession := by
          cases hbody : f.frame.body <;> simp [State.completeFrame, State.countCompleted, hbody] <;> rfl
        rw [hend]
        exact Work.endSession.plain
      · exact (Work.completeFrame f hflight).plain
    · exact Completes.refl s

theorem execFailedAttempt_completes (bit : Nat) : Completes s (execFailedAttempt bit s) := by
  unfold execFailedAttempt
  split
  · next h =>
    obtain ⟨f, hflight, -⟩ := Option.bind_eq_some_iff.1 h
    exact (Work.failAttempt bit f hflight).plain
  · exact Completes.refl s

theorem execEmptyRotation_completes : Completes s (execEmptyRotation s) := by
  unfold execEmptyRotation
  split
  · next h => exact (Work.countRotation h.1).settled
  · exact Completes.refl s

theorem execLeaveTimerExpiry_completes : Completes s (execLeaveTimerExpiry s) := by
  unfold execLeaveTimerExpiry
  split
  · exact Completes.refl s
  · split
    · exact Work.endSession.plain
    · exact Completes.refl s

theorem execAgreementPoint_completes : Completes s (execAgreementPoint s) := by
  unfold execAgreementPoint
  split
  · exact Completes.refl s
  · split
    · next h => exact (Work.takePoint _ h.1).settled
    · exact Completes.refl s

theorem execSilenceTimerExpiry_completes (i : Station) : Completes s (execSilenceTimerExpiry i s) := by
  unfold execSilenceTimerExpiry
  split
  · next h =>
    obtain ⟨hmode, hpeer, -⟩ := h
    unfold State.takeSilence
    split
    · exact (Work.peerLeaves i hmode hpeer).settled
    · next hlive => exact (Work.fallSilent i hmode hpeer hlive).settled
    · exact Completes.refl s
    · exact Completes.refl s
  · exact Completes.refl s

theorem execExpelTimerExpiry_completes (i : Station) : Completes s (execExpelTimerExpiry i s) := by
  unfold execExpelTimerExpiry
  split
  · next h =>
    obtain ⟨hmode, hpeer, -⟩ := h
    exact (Work.peerLeaves i hmode hpeer).settled
  · exact Completes.refl s

theorem execEdge_completes (i : InputNo) (level : Bool) : Completes s (execEdge i level s) := by
  unfold execEdge
  split
  · exact Completes.refl s
  · unfold State.takeEdge
    split
    · next p hpending => exact (Work.cancelEdge (s := s) i level p hpending).settled
    · split
      · next h => exact (Work.startEdge (s := s) i level h.1).settled
      · exact (Work.setInput i level).plain

theorem execDebounceExpiry_completes (i : InputNo) : Completes s (execDebounceExpiry i s) := by
  unfold execDebounceExpiry
  split
  · exact Completes.refl s
  · split
    · next h => exact (Work.confirmCapture i _ h.1).settled
    · exact Completes.refl s

theorem execBeaconTimerExpiry_completes : Completes s (execBeaconTimerExpiry s) := by
  unfold execBeaconTimerExpiry
  split
  · exact Completes.refl s
  · split
    · next h => exact (Work.beaconExpiry h.1).plain
    · exact Completes.refl s

theorem execGapDeadline_completes (station : Station) (first : Seq) :
    Completes s (execGapDeadline station first s) := by
  unfold execGapDeadline
  split
  · exact Completes.refl s
  · next g hg =>
    split
    · next h => exact (Work.takeDeadline g h.1 (List.mem_of_find?_eq_some hg)).settled
    · exact Completes.refl s

theorem execIdleTimerExpiry_completes (id : StreamId) : Completes s (execIdleTimerExpiry id s) := by
  unfold execIdleTimerExpiry
  split
  · exact Completes.refl s
  · next htimer =>
    split
    · exact (Work.idleExpiry id _ htimer).plain
    · exact Completes.refl s

theorem execFrameStart_completes : Completes s (execFrameStart s) := by
  unfold execFrameStart
  split
  · split
    · next h => exact (Work.openFrame _ _ h.1 h.2).plain
    · exact Completes.refl s
  · exact Completes.refl s

theorem execLocalCountIncrement_completes (inputs : BitVec 16) (level : Bool) :
    Completes s (execLocalCountIncrement inputs level s) := by
  unfold execLocalCountIncrement
  split
  · exact Completes.refl s
  · exact (Work.increment inputs level).plain

theorem execLineRelease_completes : Completes s (execLineRelease s) := by
  unfold execLineRelease
  split
  · split
    · next h => exact (Work.takeRelease _ h.1).plain
    · exact Completes.refl s
  all_goals exact Completes.refl s

end

/-- Every command completes: its work is one of `Work`, and its finish one of `Finish`. -/
theorem exec_completes (c : Instr) (s : State) : Completes s (exec c s) := by
  cases c with
  | fullReset rst => exact execFullReset_completes s rst
  | transactionStart => exact execTransactionStart_completes s
  | transactionEnd => exact (Work.port _).plain
  | readStream stream max => exact Completes.take (readStream_completes s stream max)
  | readLatch slot => exact Completes.take (readLatch_completes s slot)
  | readUrgent => exact Completes.take (readUrgent_completes s)
  | readRoster station => exact Completes.take (readRoster_completes s station)
  | readChanges => exact Completes.take (Work.clearMarks.answered _ _)
  | readClock => exact Completes.take (Work.clearClockChanged.answered _ _)
  | readCounters group => exact Completes.take (readCounters_completes s group)
  | clearCounters => exact Completes.take (Work.clearCounters.answered _ _)
  | setupWrite item index value =>
    exact Completes.take (Completes.inMode fun hmode => setupWrite_completes s hmode item index value)
  | setupRead item index => exact Completes.take (Completes.inMode fun _ => setupRead_completes s item index)
  | commit => exact Completes.take (Completes.inMode (commit_completes s))
  | submit channel code flags value =>
    exact Completes.take (Completes.inMode fun hmode => submit_completes s hmode channel code flags value)
  | unmute => exact Completes.take (Work.unmute.answered _ _)
  | leave => exact Completes.take (Completes.inMode fun hmode => (Work.startLeaving hmode).answered _ _)
  | restart => exact Completes.take (Work.endSession.answered _ _)
  | badCommand byte => exact execBadCommand_completes s byte
  | frameEnd bytes framingError => exact execFrameEnd_completes s bytes framingError
  | opportunity => exact execOpportunity_completes s
  | completion => exact execCompletion_completes s
  | failedAttempt bit => exact execFailedAttempt_completes s bit
  | emptyRotation => exact execEmptyRotation_completes s
  | leaveTimerExpiry => exact execLeaveTimerExpiry_completes s
  | agreementPoint => exact execAgreementPoint_completes s
  | silenceTimerExpiry i => exact execSilenceTimerExpiry_completes s i
  | expelTimerExpiry i => exact execExpelTimerExpiry_completes s i
  | edge i level => exact execEdge_completes s i level
  | debounceExpiry i => exact execDebounceExpiry_completes s i
  | beaconTimerExpiry => exact execBeaconTimerExpiry_completes s
  | gapDeadline station first => exact execGapDeadline_completes s station first
  | orderedRelease => exact Work.nothing.settled
  | idleTimerExpiry id => exact execIdleTimerExpiry_completes s id
  | frameStart => exact execFrameStart_completes s
  | localCountIncrement inputs level => exact execLocalCountIncrement_completes s inputs level
  | lineReleaseAfterFramingError => exact execLineRelease_completes s

/-- The inversion of `exec`. -/
theorem exec_cases {c : Instr} {s t : State} (h : exec c s = .next t) : ∃ u, Work s u ∧ Finish u t := by
  obtain ⟨u, t', hwork, hfinish, heq⟩ := exec_completes c s
  rw [heq] at h
  cases h
  exact ⟨u, hwork, hfinish⟩

end Sys2Proof.Machine
end

section
/-! PROOFS. What the steps of a command leave alone, and from it: the queue is kept and station time never goes back. -/

namespace Sys2Proof.Machine

/-! ### The entry to ACTIVE -/

/-- R21: either both conditions are met in LISTENING, or nothing happens. -/
theorem State.tryActive_cases (s : State) :
    (s.mode = .listening ∧ s.clock.firstPoint = true ∧ s.line.observed = true ∧
      s.tryActive = (({ s with line := { s.line with mode := .active } } : State).setThrough s.st).ownEntryLive) ∨
    s.tryActive = s := by
  unfold State.tryActive
  split
  · next h => exact .inl ⟨h.1, h.2.1, h.2.2, rfl⟩
  · exact .inr rfl

section
variable (s : State)

@[simp] theorem State.pending_tryActive : s.tryActive.pending = s.pending := by
  unfold State.tryActive; split <;> rfl
@[simp] theorem State.setup_tryActive : s.tryActive.setup = s.setup := by
  unfold State.tryActive; split <;> rfl
@[simp] theorem State.clock_tryActive : s.tryActive.clock = s.clock := by
  unfold State.tryActive; split <;> rfl
@[simp] theorem State.capture_tryActive : s.tryActive.capture = s.capture := by
  unfold State.tryActive; split <;> rfl
@[simp] theorem State.outbound_tryActive : s.tryActive.outbound = s.outbound := by
  unfold State.tryActive; split <;> rfl
@[simp] theorem State.sequencer_tryActive : s.tryActive.sequencer = s.sequencer := by
  unfold State.tryActive; split <;> rfl
@[simp] theorem State.urgent_tryActive : s.tryActive.urgent = s.urgent := by
  unfold State.tryActive; split <;> rfl

end

/-! ### The hand-over of a frame -/

/-- `t` is `s` but for the roster, the outbound side and what the sequencer can change. -/
def OnlyTaking (s t : State) : Prop :=
  { t with
    roster := s.roster, outbound := s.outbound, sequencer := s.sequencer, urgent := s.urgent
    journal := s.journal, counters := s.counters, lossAdvanced := s.lossAdvanced } = s

section
variable {s t u : State}

theorem OnlyTaking.trans (h : OnlyTaking s t) (k : OnlyTaking t u) : OnlyTaking s u := by
  unfold OnlyTaking at *
  rw [← h, ← k]

theorem OnlyRecovery.toTaking (h : OnlyRecovery s t) : OnlyTaking s t := by
  unfold OnlyTaking
  conv_rhs => rw [← h]
  rw [← h.roster, ← h.outbound]

theorem OnlyTaking.pending (h : OnlyTaking s t) : t.pending = s.pending := by
  unfold OnlyTaking at h; rw [← h]
theorem OnlyTaking.setup (h : OnlyTaking s t) : t.setup = s.setup := by
  unfold OnlyTaking at h; rw [← h]
theorem OnlyTaking.line (h : OnlyTaking s t) : t.line = s.line := by
  unfold OnlyTaking at h; rw [← h]
theorem OnlyTaking.clock (h : OnlyTaking s t) : t.clock = s.clock := by
  unfold OnlyTaking at h; rw [← h]
theorem OnlyTaking.capture (h : OnlyTaking s t) : t.capture = s.capture := by
  unfold OnlyTaking at h; rw [← h]
theorem OnlyTaking.own (h : OnlyTaking s t) : t.own = s.own := congrArg Setup.station h.setup
theorem OnlyTaking.mode (h : OnlyTaking s t) : t.mode = s.mode := congrArg Line.mode h.line

variable (s)

theorem setEntry_onlyTaking (i : Station) (e : RosterEntry) : OnlyTaking s (s.setEntry i e) := rfl

theorem tellGone_onlyRecovery (i : Station) : OnlyRecovery s (s.tellGone i) :=
  (closeGaps_onlyRecovery s _ _).trans (setSeqEntry_onlyRecovery _ _ _)

theorem tellRestart_onlyRecovery (i : Station) (inc : Byte) : OnlyRecovery s (s.tellRestart i inc) :=
  (closeGaps_onlyRecovery s _ _).trans (setSeqEntry_onlyRecovery _ _ _)

theorem peerLeaves_onlyTaking (i : Station) : OnlyTaking s (s.peerLeaves i) :=
  (setEntry_onlyTaking s i _).trans (tellGone_onlyRecovery _ i).toTaking

theorem takeFromAbsent_onlyTaking (f : Frame) (stamp stampL : Time) :
    OnlyTaking s (s.takeFromAbsent f stamp stampL) := by
  unfold State.takeFromAbsent
  dsimp only
  split <;> rfl

theorem takeSameIncarnation_onlyTaking (f : Frame) (stamp stampL : Time) :
    OnlyTaking s (s.takeSameIncarnation f stamp stampL) := rfl

theorem takeNewIncarnation_onlyTaking (f : Frame) (stamp stampL : Time) :
    OnlyTaking s (s.takeNewIncarnation f stamp stampL) :=
  (tellRestart_onlyRecovery s f.sender f.incarnation).toTaking.trans rfl

/-- R55: the roster changes its entries and what it reports to the sequencer. -/
theorem rosterTake_onlyTaking (f : Frame) (stamp stampL : Time) : OnlyTaking s (s.rosterTake f stamp stampL) := by
  unfold State.rosterTake
  split
  · exact takeFromAbsent_onlyTaking s f stamp stampL
  · dsimp only
    have hkept : OnlyTaking s
        (if (s.entry f.sender).incarnation = f.incarnation then s.takeSameIncarnation f stamp stampL
          else s.takeNewIncarnation f stamp stampL) := by
      split
      · exact takeSameIncarnation_onlyTaking s f stamp stampL
      · exact takeNewIncarnation_onlyTaking s f stamp stampL
    split
    · exact hkept.trans (peerLeaves_onlyTaking _ _)
    · exact hkept

/-! ### What the outbound side takes -/

theorem takeRange_onlyTaking (r : SeqRange) : OnlyTaking s (s.takeRange r) := by
  unfold State.takeRange State.addJob
  split
  · split
    · rfl
    · split <;> rfl
  · rfl

theorem foldl_takeRange_onlyTaking (rs : List SeqRange) : ∀ s : State, OnlyTaking s (rs.foldl State.takeRange s) := by
  induction rs with
  | nil => exact fun s => rfl
  | cons r rs ih => exact fun s => (takeRange_onlyTaking s r).trans (ih _)

theorem outboundTake_onlyTaking (f : Frame) : OnlyTaking s (s.outboundTake f) := by
  unfold State.outboundTake
  split
  · split
    · exact foldl_takeRange_onlyTaking _ s
    · rfl
  all_goals rfl

/-- R13 steps 3 to 5: handing a frame on changes nothing of line access, the clock, the inputs and the setup values. -/
theorem handOn_onlyTaking (f : Frame) (stamp stampL : Time) : OnlyTaking s (s.handOn f stamp stampL) :=
  ((rosterTake_onlyTaking s f stamp stampL).trans (sequencerTake_onlyRecovery _ f).toTaking).trans
    (outboundTake_onlyTaking _ f)

end

/-! ### Own records and completions -/

/-- `t` is `s` but for the capture unit, the outbound side and the path of a record into the journal. -/
def OnlyCapturing (s t : State) : Prop :=
  { t with
    capture := s.capture, outbound := s.outbound, urgent := s.urgent, journal := s.journal
    counters := s.counters, lossAdvanced := s.lossAdvanced } = s

section
variable {s t u : State}

theorem OnlyCapturing.trans (h : OnlyCapturing s t) (k : OnlyCapturing t u) : OnlyCapturing s u := by
  unfold OnlyCapturing at *
  rw [← h, ← k]

theorem OnlyJournalPath.toCapturing (h : OnlyJournalPath s t) : OnlyCapturing s t := by
  unfold OnlyCapturing
  conv_rhs => rw [← h]
  rw [← h.capture, ← h.outbound]

theorem OnlyCapturing.pending (h : OnlyCapturing s t) : t.pending = s.pending := by
  unfold OnlyCapturing at h; rw [← h]
theorem OnlyCapturing.setup (h : OnlyCapturing s t) : t.setup = s.setup := by
  unfold OnlyCapturing at h; rw [← h]
theorem OnlyCapturing.line (h : OnlyCapturing s t) : t.line = s.line := by
  unfold OnlyCapturing at h; rw [← h]
theorem OnlyCapturing.clock (h : OnlyCapturing s t) : t.clock = s.clock := by
  unfold OnlyCapturing at h; rw [← h]
theorem OnlyCapturing.roster (h : OnlyCapturing s t) : t.roster = s.roster := by
  unfold OnlyCapturing at h; rw [← h]
theorem OnlyCapturing.sequencer (h : OnlyCapturing s t) : t.sequencer = s.sequencer := by
  unfold OnlyCapturing at h; rw [← h]
theorem OnlyCapturing.mode (h : OnlyCapturing s t) : t.mode = s.mode := congrArg Line.mode h.line

variable (s)

/-- R77: the own record created next. -/
def State.ownRecord (channel : Channel) (code : Byte) (timestamp : Time) (unsure : Bool)
    (value : Option (BitVec 16)) : Record :=
  ⟨s.own, s.setup.incarnation, s.outbound.nextSeq,
    ⟨channel, code, timestamp, unsure, value,
      if s.capture.lossCount = 0 then none else some s.capture.lossCount⟩⟩

/-- R77: an own record joins OUTQ's tail, and the loss count it carries starts again. -/
def State.enqueueOwn (r : Record) : State :=
  { s with
    capture := { s.capture with lossCount := 0 }
    outbound := { s.outbound with nextSeq := s.outbound.nextSeq + 1, outq := s.outbound.outq ++ [r] } }

theorem createOwn_eq (channel : Channel) (code : Byte) (timestamp : Time) (unsure : Bool)
    (value : Option (BitVec 16)) :
    s.createOwn channel code timestamp unsure value =
      (s.enqueueOwn (s.ownRecord channel code timestamp unsure value)).accept
        (s.ownRecord channel code timestamp unsure value) := rfl

theorem enqueueOwn_onlyCapturing (r : Record) : OnlyCapturing s (s.enqueueOwn r) := rfl

theorem createOwn_onlyCapturing (channel : Channel) (code : Byte) (timestamp : Time) (unsure : Bool)
    (value : Option (BitVec 16)) : OnlyCapturing s (s.createOwn channel code timestamp unsure value) := by
  rw [createOwn_eq]
  exact (enqueueOwn_onlyCapturing s _).trans (accept_onlyJournalPath _ _).toCapturing

theorem setPendingEdge_onlyCapturing (i : InputNo) (p : Option PendingEdge) :
    OnlyCapturing s (s.setPendingEdge i p) := rfl

theorem confirmCapture_onlyCapturing (i : InputNo) (p : PendingEdge) : OnlyCapturing s (s.confirmCapture i p) := by
  unfold State.confirmCapture
  split
  · rfl
  · exact (setPendingEdge_onlyCapturing s i none).trans (createOwn_onlyCapturing _ _ _ _ _ _)

theorem startEdge_onlyCapturing (i : InputNo) (level : Bool) :
    OnlyCapturing s ((s.setInput s.capture.levels i level).startPending i level) := by
  have hinput : OnlyCapturing s (s.setInput s.capture.levels i level) := rfl
  refine hinput.trans ?_
  unfold State.startPending
  split
  · exact (setPendingEdge_onlyCapturing _ i _).trans (confirmCapture_onlyCapturing _ _ _)
  · rfl

end

section
variable (s : State)

/-- What a completion changes: line access, the outbound side, the covered gaps, the line counters and the own entry. -/
theorem completeFrame_eq (f : Flight) :
    s.completeFrame f =
      { s with
        line := s.line.completeFlight f
        outbound :=
          { s.outbound.completed f.frame.body with
            beaconTimer := some (s.l + millis s.setup.beaconInterval), beaconDue := false }
        sequencer := (s.requestCompleted f.covered).sequencer
        counters := (s.countCompleted f.frame.body).counters
        lossAdvanced := (s.countCompleted f.frame.body).lossAdvanced
        roster := s.roster.set s.own.val { s.entry s.own with lastHeard := f.frame.sendStamp } } := by
  unfold State.completeFrame
  cases f.frame.body <;> rfl

/-- What the frame end of a GOOD frame changes. -/
theorem endGoodFrame_eq (sender : Station) :
    s.endGoodFrame sender =
      { s with
        line := { (s.line.endFrame (some sender)).hearGood with observed := true }
        counters := s.counters.advance .framesGood } := by
  simp [State.endGoodFrame, State.count, State.observe, Counter.isLoss]

/-- R20: what the start of a session changes outside the streams. -/
theorem startSession_onlyJournal :
    OnlyJournal
      { s with
        line := { s.line.restartIdle with mode := .listening }
        clock := { s.clock with nextPoint := some (s.l + millis s.setup.agreementPeriod) }
        outbound :=
          { s.outbound with beaconTimer := some (s.l + millis s.setup.beaconInterval), beaconDue := false } }
      s.startSession :=
  (restartIdleTimer_onlyJournal _ .a).trans (restartIdleTimer_onlyJournal _ .b)

theorem answer_onlyJournal {t : State} (h : OnlyJournal s t) (r : Result) (data : List Byte) :
    OnlyJournal (s.answer r data) (t.answer r data) := by
  unfold OnlyJournal at *
  conv_rhs => rw [← h]
  rfl

/-- R153: a read of a stream changes the reply and what delivering and releasing change. -/
theorem readEntries_onlyJournal (id : StreamId) (max : Nat) :
    ∃ data, OnlyJournal (s.answer .ok data) (s.readEntries id max) :=
  ⟨_, (answer_onlyJournal s ((setStream_onlyJournal s id _).trans (restartIdleTimer_onlyJournal _ id)) _ _).trans
    (releaseReady_onlyJournal _)⟩

end

/-! ### The queue -/

section
variable {s u t : State}

theorem Work.pending (h : Work s u) : u.pending = s.pending := by
  cases h with
  | restartIdleTimer id => exact (restartIdleTimer_onlyJournal s id).pending
  | readEntries id max => exact (readEntries_onlyJournal s id max).choose_spec.pending
  | startSession => exact (startSession_onlyJournal s).pending
  | submit => exact (createOwn_onlyCapturing s _ _ _ _ _).pending
  | endOwnFrame surplus => cases surplus <;> rfl
  | takeGoodFrame f stamp stampL =>
    exact (State.pending_tryActive _).trans (handOn_onlyTaking _ f stamp stampL).pending
  | completeFrame f => rw [completeFrame_eq]
  | endMalformedFrame | countRotation | takePoint => exact State.pending_tryActive _
  | increment => exact (settle_onlyJournal s).pending
  | peerLeaves i => exact (peerLeaves_onlyTaking s i).pending
  | confirmCapture i p => exact (confirmCapture_onlyCapturing s i p).pending
  | startEdge i level => exact (startEdge_onlyCapturing s i level).pending
  | takeDeadline g => exact (takeDeadline_onlyRecovery s g).pending
  | _ => rfl

theorem Finish.pending (h : Finish u t) : t.pending = u.pending := by
  cases h with
  | settled => exact (settle_onlyJournal u).pending
  | _ => rfl

end

/-- Settles O1: `step` takes the front command off the queue and runs it. -/
theorem stepRunsFrontCommand : Obligations.StepRunsFrontCommand := fun _ _ _ => rfl

/-- Settles O2: every command completes, and neither its work nor its finish touches the queue. -/
theorem commandsCompleteAndKeepQueue : Obligations.CommandsCompleteAndKeepQueue := by
  intro c s
  obtain ⟨u, t, hwork, hfinish, heq⟩ := exec_completes c s
  exact ⟨t, heq, hfinish.pending.trans hwork.pending⟩

/-! ### The clock -/

section
variable {s u t : State}

@[simp] theorem Finish.clock (h : Finish u t) : t.clock = u.clock := by
  cases h with
  | settled => exact (settle_onlyJournal u).clock
  | _ => rfl

theorem Finish.line (h : Finish u t) : t.line = u.line := by
  cases h with
  | settled => exact (settle_onlyJournal u).line
  | _ => rfl

theorem Finish.mode (h : Finish u t) : t.mode = u.mode := congrArg Line.mode h.line

/-- What a command can do to the clock: set the agreement timer, end the session, count one increment of L, or take an
agreement point. -/
theorem Work.clock_cases (h : Work s u) :
    (∃ next, u.clock = { s.clock with nextPoint := next }) ∨ u.mode = .setup ∧ u.clock.debt = 0 ∨
      u.clock = s.clock.increment ∨ ∃ p, s.mode.onLine = true ∧ u.clock = s.clockAfterPoint p := by
  have hkept : ∀ {c : Clock}, c = s.clock → ∃ next, c = { s.clock with nextPoint := next } :=
    fun hc => ⟨s.clock.nextPoint, hc⟩
  cases h with
  | reset | endSession => exact .inr (.inl ⟨rfl, rfl⟩)
  | increment => exact .inr (.inr (.inl (congrArg Clock.increment (settle_onlyJournal s).clock)))
  | takePoint p hmode => exact .inr (.inr (.inr ⟨p, hmode, State.clock_tryActive _⟩))
  | startSession => exact .inl ⟨_, (startSession_onlyJournal s).clock⟩
  | duplicateNumber => exact .inl ⟨none, rfl⟩
  | restartIdleTimer id => exact .inl (hkept (restartIdleTimer_onlyJournal s id).clock)
  | readEntries id max => exact .inl (hkept (readEntries_onlyJournal s id max).choose_spec.clock)
  | submit => exact .inl (hkept (createOwn_onlyCapturing s _ _ _ _ _).clock)
  | endOwnFrame surplus => cases surplus <;> exact .inl (hkept rfl)
  | takeGoodFrame f stamp stampL =>
    exact .inl (hkept ((State.clock_tryActive _).trans (handOn_onlyTaking _ f stamp stampL).clock))
  | completeFrame f => exact .inl (hkept (by rw [completeFrame_eq]))
  | endMalformedFrame | countRotation => exact .inl (hkept (State.clock_tryActive _))
  | peerLeaves i => exact .inl (hkept (peerLeaves_onlyTaking s i).clock)
  | confirmCapture i p => exact .inl (hkept (confirmCapture_onlyCapturing s i p).clock)
  | startEdge i level => exact .inl (hkept (startEdge_onlyCapturing s i level).clock)
  | takeDeadline g => exact .inl (hkept (takeDeadline_onlyRecovery s g).clock)
  | _ => exact .inl (hkept rfl)

/-- R40: an increment moves ST on by one, or withholds it. -/
theorem Clock.st_increment (c : Clock) : c.increment.st = c.st + 1 ∨ c.increment.st = c.st := by
  unfold Clock.increment
  dsimp only
  split
  · exact .inr rfl
  · exact .inl rfl

/-- The state table leaves everything but the state and its two counts alone. -/
theorem Clock.advanceState_eq (c : Clock) (kind : PointKind) (m : Option Int) (bound : Nat) :
    c.advanceState kind m bound =
      { c with
        state := (c.advanceState kind m bound).state
        goodPoints := (c.advanceState kind m bound).goodPoints
        alonePoints := (c.advanceState kind m bound).alonePoints } := by
  unfold Clock.advanceState
  split
  all_goals try split
  all_goals rfl

theorem Clock.st_advanceState (c : Clock) (kind : PointKind) (m : Option Int) (bound : Nat) :
    (c.advanceState kind m bound).st = c.st := by
  rw [Clock.advanceState_eq]

theorem Clock.debt_advanceState (c : Clock) (kind : PointKind) (m : Option Int) (bound : Nat) :
    (c.advanceState kind m bound).debt = c.debt := by
  rw [Clock.advanceState_eq]

theorem clampStep_le (limit : Nat) (m : Int) : clampStep limit m ≤ limit := by
  unfold clampStep; omega

/-- R48: a correction in ACTIVE and LEAVING steps ST forward by at most the step limit, or leaves it. -/
theorem Clock.st_stepOrDebt (c : Clock) (limit : Nat) (m : Option Int) :
    ∃ d : Nat, d ≤ limit ∧ (c.stepOrDebt limit m).st = c.st + BitVec.ofNat 48 d := by
  have hstays : c.st = c.st + BitVec.ofNat 48 0 := by simp
  unfold Clock.stepOrDebt
  split
  · exact ⟨0, Nat.zero_le _, hstays⟩
  · next m =>
    split
    · next hpos =>
      have hle := clampStep_le limit m
      refine ⟨(clampStep limit m).toNat, by omega, ?_⟩
      have hint : clampStep limit m = ((clampStep limit m).toNat : Int) := by omega
      show c.st + BitVec.ofInt 48 (clampStep limit m) = _
      rw [hint, BitVec.ofInt_natCast, Int.toNat_natCast]
    · split <;> exact ⟨0, Nat.zero_le _, hstays⟩

/-- R40: the work of a command moves ST on by at most the larger of one and the step limit, while the station works. -/
theorem Work.st_of_working (h : Work s u) (hwork : s.mode.working = true) (hstill : u.mode ≠ .setup) :
    ∃ d : Nat, d ≤ max 1 s.setup.stepLimit ∧ u.clock.st = s.clock.st + BitVec.ofNat 48 d := by
  obtain ⟨next, hclock⟩ | ⟨hsetup, -⟩ | hclock | ⟨p, -, hclock⟩ := h.clock_cases
  · exact ⟨0, Nat.zero_le _, by simp [hclock]⟩
  · exact absurd hsetup hstill
  · rw [hclock]
    obtain hst | hst := s.clock.st_increment
    · exact ⟨1, Nat.le_max_left _ _, hst⟩
    · exact ⟨0, Nat.zero_le _, by simp [hst]⟩
  · have hmode : s.mode ≠ .listening := by intro hm; rw [hm] at hwork; cases hwork
    obtain ⟨d, hd, hst⟩ := s.clock.st_stepOrDebt s.setup.stepLimit s.pointMidpoint
    refine ⟨d, hd.trans (Nat.le_max_right _ _), ?_⟩
    rw [hclock, ← hst]
    exact (Clock.st_advanceState _ _ _ _).trans (by rw [State.corrected, if_neg hmode])

end

/-- Settles O35: of what a command can do to the clock, only an increment and an agreement point move ST. -/
theorem stationTimeNeverDecreases : Obligations.StationTimeNeverDecreases := by
  intro c s t hlimit hmode hexec hstill
  obtain ⟨u, hwork, hfinish⟩ := exec_cases hexec
  have hsetup : u.mode ≠ .setup := by
    rw [← hfinish.mode]
    rintro hm
    rw [hm] at hstill
    exact hstill.elim nofun nofun
  obtain ⟨d, hd, hst⟩ := hwork.st_of_working ((Mode.working_iff _).2 hmode) hsetup
  exact ⟨d, hd.trans (by omega), by rw [hfinish.clock, hst]⟩

end Sys2Proof.Machine
end

section
/-! PROOFS. The stores of the journal path stay within their capacity: streams, pool and urgent notes (R120, R125, R148,
R157). -/

namespace Sys2Proof.Machine

/-! ### What is right of each store -/

/-- A stream holds no more than it can, and its timeout flag is set only with entries held. -/
structure JournalStream.Right (x : JournalStream) : Prop where
  length : x.entries.length ≤ streamCapacity
  timeout : x.timeout = true → x.entries ≠ []

/-- The streams and the pool hold no more than they can. -/
structure Journal.Right (j : Journal) : Prop where
  stream : ∀ id, (j.stream id).Right
  pool : j.pool.length ≤ poolCapacity

/-- The note queue holds no more than it can, and its overflow flag is set only with notes held. -/
structure Urgent.Right (u : Urgent) : Prop where
  length : u.notes.length ≤ noteCapacity
  overflow : u.overflow = true → u.notes ≠ []

/-- The outbound side's queues and count are within their bounds. -/
structure Outbound.Right (o : Outbound) : Prop where
  outq : o.outq.length ≤ outqCapacity
  history : o.history.length ≤ historyCapacity
  jobs : o.jobs.length ≤ jobCapacity
  sentCount : o.sentCount ≤ sentCountCap

/-- The counts of the transmitter are within their bounds. -/
structure Line.Right (n : Line) : Prop where
  failures : n.failures ≤ muteFailures
  backoff : n.backoff ≤ backoffCap
  goodRun : n.goodRun ≤ goodRunCap

/-- The gap table is in station order, holds no more than it can, and each gap misses 1 to 1,024 numbers. -/
structure GapsRight (gs : List Gap) : Prop where
  size : ∀ g ∈ gs, 1 ≤ g.count ∧ g.count ≤ longestGap
  order : gs.Pairwise fun a b => a.station ≤ b.station
  length : gs.length ≤ gapCapacity

/-- The stores that the recovery of gaps reaches: the gap table, the notes, the streams and the pool. -/
structure State.RecoveryRight (s : State) : Prop where
  gaps : GapsRight s.sequencer.gaps
  urgent : s.urgent.Right
  journal : s.journal.Right

/-- The invariant of the stores, store by store. -/
theorem storesRight_iff (s : State) : s.StoresRight ↔ s.line.Right ∧ s.outbound.Right ∧ s.RecoveryRight := by
  constructor
  · rintro ⟨hsize, horder, hcap, hflags⟩
    refine ⟨⟨hcap.failures, hcap.backoff, hcap.goodRun⟩, ⟨hcap.outq, hcap.history, hcap.jobs, hcap.sentCount⟩,
      ⟨hsize, horder, hcap.gaps⟩, ⟨hcap.notes, hflags.overflow⟩, ⟨fun id => ?_, hcap.pool⟩⟩
    cases id with
    | a => exact ⟨hcap.streamA, hflags.timeoutA⟩
    | b => exact ⟨hcap.streamB, hflags.timeoutB⟩
  · rintro ⟨hline, hout, ⟨hgaps, hurgent, hjournal⟩⟩
    obtain ⟨ha, hta⟩ := hjournal.stream .a
    obtain ⟨hb, htb⟩ := hjournal.stream .b
    exact ⟨hgaps.size, hgaps.order,
      ⟨hout.outq, hout.history, hout.jobs, hgaps.length, hurgent.length, hjournal.pool, ha, hb, hout.sentCount,
        hline.failures, hline.backoff, hline.goodRun⟩,
      ⟨hurgent.overflow, hta, htb⟩⟩

/-! ### The streams -/

section
variable {s : State}

theorem Journal.Right.setStream {j : Journal} (h : j.Right) (id : StreamId) {x : JournalStream} (hx : x.Right) :
    (j.setStream id x).Right where
  stream k := by
    rw [Journal.stream_setStream]
    split
    · exact hx
    · exact h.stream k
  pool := by rw [Journal.pool_setStream]; exact h.pool

theorem restartIdleTimer_right (h : s.journal.Right) (id : StreamId) : (s.restartIdleTimer id).journal.Right := by
  unfold State.restartIdleTimer
  split
  · exact h
  · exact h.setStream id ⟨(h.stream id).length, (h.stream id).timeout⟩

theorem dropFor_right (h : s.journal.Right) (id : StreamId) : (s.dropFor id).journal.Right :=
  h.setStream id ⟨(h.stream id).length, (h.stream id).timeout⟩

theorem State.streamFull_iff (id : StreamId) : s.streamFull id = true ↔ streamCapacity ≤ (s.stream id).entries.length :=
  decide_eq_true_iff

theorem writeTo_right (h : s.journal.Right) (id : StreamId) (item : Item) (late forced : Bool) :
    (s.writeTo id item late forced).journal.Right := by
  unfold State.writeTo
  split
  · exact dropFor_right h id
  · next hroom =>
    rw [State.streamFull_iff] at hroom
    refine restartIdleTimer_right (h.setStream id ⟨?_, fun _ => by simp⟩) id
    simp only [List.length_append, List.length_singleton]
    omega

theorem latchTo_right (h : s.journal.Right) (n : SlotNo) (item : Item) (forced : Bool) :
    (s.latchTo n item forced).journal.Right := by
  unfold State.latchTo
  split
  · exact ⟨h.stream, h.pool⟩
  · exact h

theorem deliver_right (h : s.journal.Right) (e : PoolEntry) (late forced : Bool) :
    (s.deliver e late forced).journal.Right := by
  unfold State.deliver
  split
  · exact writeTo_right h _ _ _ _
  · exact writeTo_right (writeTo_right h _ _ _ _) _ _ _ _
  · exact latchTo_right h _ _ _

/-! ### The pool -/

theorem Journal.Right.setPool (h : s.journal.Right) {p : List PoolEntry} (hp : p.length ≤ poolCapacity) :
    (s.setPool p).journal.Right := ⟨h.stream, hp⟩

theorem Journal.Right.setThrough (h : s.journal.Right) (t : Time) : (s.setThrough t).journal.Right :=
  ⟨h.stream, h.pool⟩

theorem raiseThrough_right (h : s.journal.Right) (t : Time) : (s.raiseThrough t).journal.Right := by
  unfold State.raiseThrough
  split
  · exact h.setThrough t
  · exact h

theorem followHorizon_right (h : s.journal.Right) : s.followHorizon.journal.Right := by
  unfold State.followHorizon
  split
  · exact raiseThrough_right h _
  · exact h

theorem setPool_tail_right (h : s.journal.Right) {e : PoolEntry} {rest : List PoolEntry}
    (hpool : s.journal.pool = e :: rest) : (s.setPool rest).journal.Right := by
  refine h.setPool (Nat.le_trans ?_ h.pool)
  rw [hpool]
  exact Nat.le_succ _

theorem releaseUpTo_right (n : Nat) : ∀ {s : State}, s.journal.Right → (releaseUpTo n s).journal.Right := by
  induction n with
  | zero => exact fun h => h
  | succ n ih =>
    intro s h
    unfold releaseUpTo
    split
    · exact h
    · next hpool =>
      split
      · exact ih (deliver_right (setPool_tail_right h hpool) _ _ _)
      · exact h

theorem releaseReady_right (h : s.journal.Right) : s.releaseReady.journal.Right := by
  unfold State.releaseReady
  split
  · exact releaseUpTo_right _ h
  · exact h

theorem settle_right (h : s.journal.Right) : s.settle.journal.Right := releaseReady_right (followHorizon_right h)

theorem takeLate_right (h : s.journal.Right) (e : PoolEntry) : (s.takeLate e).journal.Right := by
  unfold State.takeLate
  split
  · exact deliver_right h _ _ _
  · exact h
  all_goals
    split
    · exact deliver_right h _ _ _
    · exact h

theorem length_insertInOrder (e : PoolEntry) (pool : List PoolEntry) :
    (insertInOrder e pool).length = pool.length + 1 := by
  unfold insertInOrder
  rw [List.length_append, List.length_cons, ← Nat.add_assoc, ← List.length_append, List.take_append_drop]

theorem State.poolFull_iff : s.poolFull = true ↔ poolCapacity ≤ s.journal.pool.length := decide_eq_true_iff

theorem insert_right (h : s.journal.Right) (e : PoolEntry) (hroom : s.journal.pool.length < poolCapacity) :
    (s.insert e).journal.Right :=
  h.setPool (by rw [length_insertInOrder]; exact hroom)

theorem forceHead_right (h : s.journal.Right) : s.forceHead.journal.Right := by
  unfold State.forceHead
  split
  · exact h
  · next e rest hpool =>
    have hhead : (((s.setPool rest).deliver e false true).count .forcedReleases).journal.Right :=
      deliver_right (setPool_tail_right h hpool) e false true
    exact releaseReady_right (raiseThrough_right hhead _)

theorem length_releaseReady_le (s : State) : s.releaseReady.journal.pool.length ≤ s.journal.pool.length := by
  obtain ⟨⟨gone, hgone⟩, -⟩ := pool_releaseReady s
  rw [hgone, List.length_append]
  exact Nat.le_add_left _ _

theorem pool_raiseThrough (s : State) (t : Time) : (s.raiseThrough t).journal.pool = s.journal.pool := by
  unfold State.raiseThrough; split <;> rfl

/-- R141: forcing the head out of a pool with entries makes room. -/
theorem length_forceHead_lt (h : s.journal.pool ≠ []) : s.forceHead.journal.pool.length < s.journal.pool.length := by
  unfold State.forceHead
  split
  · next hpool => exact absurd hpool h
  · next e rest hpool =>
    refine Nat.lt_of_le_of_lt (length_releaseReady_le _) ?_
    rw [pool_raiseThrough, pool_count, (pool_deliver _ _ _ _).1, hpool]
    exact Nat.lt_succ_self _

theorem countListeningDrop_right (h : s.journal.Right) (e : PoolEntry) : (s.countListeningDrop e).journal.Right := by
  have hcount : (s.count .forcedReleases).journal.Right := h
  unfold State.countListeningDrop
  split
  · exact dropFor_right hcount _
  · exact dropFor_right (dropFor_right hcount _) _
  · exact hcount

theorem listeningDrop_right (h : s.journal.Right) (e : PoolEntry) : (s.listeningDrop e).journal.Right := by
  unfold State.listeningDrop
  split
  · exact h
  · next first rest hinsert =>
    have hlength := length_insertInOrder e s.journal.pool
    rw [hinsert, List.length_cons] at hlength
    exact countListeningDrop_right (h.setPool (by have := h.pool; omega)) _

/-- R136 to R143: an arrival leaves the streams and the pool right. -/
theorem arrive_right (h : s.journal.Right) (e : PoolEntry) : (s.arrive e).journal.Right := by
  have hinsert : ¬s.poolFull = true → (s.insert e).journal.Right := fun hroom =>
    insert_right h e (Nat.lt_of_not_le (mt State.poolFull_iff.2 hroom))
  unfold State.arrive
  split
  · exact h
  · split
    · exact h
    · exact h
    · split
      · exact listeningDrop_right h e
      · next hroom => exact hinsert hroom
    all_goals
      split
      · exact takeLate_right h e
      · split
        · next hfull =>
          have hpool : s.journal.pool ≠ [] := by
            rintro hnil
            rw [State.poolFull_iff, hnil] at hfull
            exact absurd hfull (by decide)
          split
          · exact takeLate_right (forceHead_right h) e
          · exact insert_right (forceHead_right h) e ((length_forceHead_lt hpool).trans_le h.pool)
        · next hroom => exact hinsert hroom

/-! ### The acceptance unit -/

theorem writeNote_right (h : s.urgent.Right) (n : Note) : (s.writeNote n).urgent.Right := by
  unfold State.writeNote
  split
  · next hroom =>
    refine ⟨?_, fun _ => by simp⟩
    simp only [List.length_append, List.length_singleton]
    omega
  · next hfull =>
    refine ⟨h.length, fun _ hnil => hfull ?_⟩
    have hnotes : s.urgent.notes = [] := hnil
    rw [hnotes]
    decide

theorem route_right (h : s.journal.Right) (r : Record) (a : Action) (n : SlotNo) : (s.route r a n).journal.Right := by
  unfold State.route
  split
  · exact arrive_right h _
  · exact arrive_right h _
  · exact arrive_right h _
  · exact h

theorem route_urgent (s : State) (r : Record) (a : Action) (n : SlotNo) : (s.route r a n).urgent = s.urgent := by
  unfold State.route
  split
  · exact (arrive_onlyJournal s _).urgent
  · exact (arrive_onlyJournal s _).urgent
  · exact (arrive_onlyJournal s _).urgent
  · rfl

theorem writeNote_journal (s : State) (n : Note) : (s.writeNote n).journal = s.journal := by
  unfold State.writeNote; split <;> rfl

/-- R116 to R120: taking a record leaves the notes, the streams and the pool right. -/
theorem accept_right (hu : s.urgent.Right) (hj : s.journal.Right) (r : Record) :
    (s.accept r).urgent.Right ∧ (s.accept r).journal.Right := by
  unfold State.accept
  split
  · rw [route_urgent]
    split
    · exact ⟨writeNote_right hu _, route_right (by rw [writeNote_journal]; exact hj) _ _ _⟩
    · exact ⟨hu, route_right hj _ _ _⟩
  · rw [route_urgent]
    exact ⟨hu, route_right hj _ _ _⟩

end

end Sys2Proof.Machine
end

section
/-! PROOFS. The gap table stays in order and within its capacity (R97, R100, R101, R107). -/

namespace Sys2Proof.Machine

/-! ### Replacing one element of a list -/

/-- What `replaceFirst` does: it replaces the first element that satisfies `p`, or nothing. -/
theorem replaceFirst_of_mem {α : Type} {p : α → Bool} {by' : α → List α} {above below : List α} {x : α}
    (habove : ∀ y ∈ above, p y = false) (hx : p x = true) :
    replaceFirst p by' (above ++ x :: below) = above ++ (by' x ++ below) := by
  induction above with
  | nil => simp [replaceFirst, hx]
  | cons y ys ih =>
    obtain ⟨hy, hys⟩ := List.forall_mem_cons.1 habove
    simp [replaceFirst, hy, ih hys]

theorem replaceFirst_of_not_mem {α : Type} {p : α → Bool} {by' : α → List α} {xs : List α}
    (h : ∀ y ∈ xs, p y = false) : replaceFirst p by' xs = xs := by
  induction xs with
  | nil => rfl
  | cons y ys ih =>
    obtain ⟨hy, hys⟩ := List.forall_mem_cons.1 h
    simp [replaceFirst, hy, ih hys]

/-- A list has a first element that satisfies `p`, or none that does. -/
theorem exists_first_or_none {α : Type} (p : α → Bool) (xs : List α) :
    (∃ above x below, xs = above ++ x :: below ∧ (∀ y ∈ above, p y = false) ∧ p x = true) ∨
      ∀ y ∈ xs, p y = false := by
  induction xs with
  | nil => exact .inr nofun
  | cons y ys ih =>
    by_cases hy : p y = true
    · exact .inl ⟨[], y, ys, rfl, nofun, hy⟩
    · rw [Bool.not_eq_true] at hy
      obtain ⟨above, x, below, rfl, habove, hx⟩ | hnone := ih
      · exact .inl ⟨y :: above, x, below, rfl, List.forall_mem_cons.2 ⟨hy, habove⟩, hx⟩
      · exact .inr (List.forall_mem_cons.2 ⟨hy, hnone⟩)

/-! ### The gap table under its updates -/

section
variable {gs : List Gap}

theorem GapsRight.filter (h : GapsRight gs) (p : Gap → Bool) : GapsRight (gs.filter p) where
  size g hg := h.size g (List.mem_of_mem_filter hg)
  order := h.order.filter p
  length := (List.length_filter_le _ _).trans h.length

/-- An update of gaps in place that keeps stations and counts. -/
theorem GapsRight.map (h : GapsRight gs) {f : Gap → Gap} (hstation : ∀ g, (f g).station = g.station)
    (hcount : ∀ g, (f g).count = g.count) : GapsRight (gs.map f) where
  size g hg := by
    obtain ⟨x, hx, rfl⟩ := List.mem_map.1 hg
    rw [hcount]
    exact h.size x hx
  order := List.pairwise_map.2 (h.order.imp fun hab => by rw [hstation, hstation]; exact hab)
  length := by rw [List.length_map]; exact h.length

theorem mem_insertGap {g x : Gap} : x ∈ insertGap g gs ↔ x = g ∨ x ∈ gs := by
  induction gs with
  | nil => simp [insertGap]
  | cons y ys ih =>
    unfold insertGap
    split
    · exact List.mem_cons
    · rw [List.mem_cons, ih, List.mem_cons]
      exact or_left_comm

theorem length_insertGap (g : Gap) : (insertGap g gs).length = gs.length + 1 := by
  induction gs with
  | nil => rfl
  | cons y ys ih =>
    unfold insertGap
    split
    · rfl
    · rw [List.length_cons, ih, List.length_cons]

theorem pairwise_insertGap (g : Gap) (h : gs.Pairwise fun a b => a.station ≤ b.station) :
    (insertGap g gs).Pairwise fun a b => a.station ≤ b.station := by
  induction gs with
  | nil => exact List.pairwise_singleton _ _
  | cons y ys ih =>
    obtain ⟨hy, hys⟩ := List.pairwise_cons.1 h
    unfold insertGap
    split
    · next hlt =>
      refine List.pairwise_cons.2 ⟨fun x hx => ?_, h⟩
      obtain rfl | hx := List.mem_cons.1 hx
      · exact hlt.le
      · exact hlt.le.trans (hy x hx)
    · next hge =>
      refine List.pairwise_cons.2 ⟨fun x hx => ?_, ih hys⟩
      obtain rfl | hx := mem_insertGap.1 hx
      · exact not_lt.1 hge
      · exact hy x hx

/-- R97: a gap that opens takes its place in the table. -/
theorem GapsRight.insertGap (h : GapsRight gs) {g : Gap} (hsize : 1 ≤ g.count ∧ g.count ≤ longestGap)
    (hroom : gs.length < gapCapacity) : GapsRight (insertGap g gs) where
  size x hx := by
    obtain rfl | hx := mem_insertGap.1 hx
    · exact hsize
    · exact h.size x hx
  order := pairwise_insertGap g h.order
  length := by rw [length_insertGap]; exact hroom

/-- What may stand in the table in the place of a gap: parts of the gap's own station, each of a legal size, and more
than one only while the table has room. -/
structure PartsRight (held : Nat) (station : Station) (parts : List Gap) : Prop where
  size : ∀ x ∈ parts, 1 ≤ x.count ∧ x.count ≤ longestGap
  station : ∀ x ∈ parts, x.station = station
  length : parts.length ≤ 1 ∨ parts.length ≤ 2 ∧ held < gapCapacity

theorem PartsRight.nil {held : Nat} {station : Station} : PartsRight held station [] :=
  ⟨by simp, by simp, .inl (Nat.zero_le 1)⟩

theorem PartsRight.singleton {held : Nat} {station : Station} {x : Gap} (hsize : 1 ≤ x.count ∧ x.count ≤ longestGap)
    (hstation : x.station = station) : PartsRight held station [x] :=
  ⟨by simpa using hsize, by simpa using hstation, .inl (Nat.le_refl 1)⟩

/-- R100, R101, R107: a gap of the table is replaced by parts. -/
theorem GapsRight.replace {above below parts : List Gap} {g : Gap} (h : GapsRight (above ++ g :: below))
    (hparts : PartsRight (above ++ g :: below).length g.station parts) : GapsRight (above ++ (parts ++ below)) where
  size x hx := by
    have hold := h.size x
    simp only [List.mem_append, List.mem_cons] at hx hold
    obtain hx | hx | hx := hx
    · exact hold (.inl hx)
    · exact hparts.size x hx
    · exact hold (.inr (.inr hx))
  order := by
    obtain ⟨habove, hrest, hacross⟩ := List.pairwise_append.1 h.order
    obtain ⟨hbelow, hself⟩ := List.pairwise_cons.1 hrest
    refine List.pairwise_append.2 ⟨habove, List.pairwise_append.2 ⟨?_, hself, fun x hx y hy => ?_⟩, fun x hx y hy => ?_⟩
    · exact List.pairwise_of_forall_mem_list fun x hx y hy => by
        rw [hparts.station x hx, hparts.station y hy]
    · rw [hparts.station x hx]
      exact hbelow y hy
    · obtain hy | hy := List.mem_append.1 hy
      · rw [hparts.station y hy]
        exact hacross x hx g List.mem_cons_self
      · exact hacross x hx y (List.mem_cons_of_mem _ hy)
  length := by
    have hheld := h.length
    have hfew := hparts.length
    simp only [List.length_append, List.length_cons] at *
    omega

/-- The same where the gap replaced is the first that satisfies `p`, if one does. -/
theorem GapsRight.replaceFirst (h : GapsRight gs) {p : Gap → Bool} {by' : Gap → List Gap}
    (hparts : ∀ g ∈ gs, p g = true → PartsRight gs.length g.station (by' g)) : GapsRight (replaceFirst p by' gs) := by
  obtain ⟨above, g, below, rfl, habove, hg⟩ | hnone := exists_first_or_none p gs
  · rw [replaceFirst_of_mem habove hg]
    exact h.replace (hparts g (by simp) hg)
  · rw [replaceFirst_of_not_mem hnone]
    exact h

end

/-! ### Parts of a gap -/

section
variable {g : Gap}

theorem Gap.part_zero (lo : Nat) : g.part lo 0 = [] := if_pos rfl

theorem Gap.part_of_pos {lo n : Nat} (h : 0 < n) :
    g.part lo n = [{ g with first := g.first + BitVec.ofNat 16 lo, count := n, tries := 0 }] :=
  if_neg h.ne'

theorem Gap.length_part_le (lo n : Nat) : (g.part lo n).length ≤ 1 := by
  unfold Gap.part; split <;> simp

theorem Gap.mem_part {lo n : Nat} {x : Gap} (h : x ∈ g.part lo n) : x.station = g.station ∧ 1 ≤ x.count ∧ x.count = n := by
  unfold Gap.part at h
  split at h
  · cases h
  · next hn =>
    obtain rfl := List.mem_singleton.1 h
    exact ⟨rfl, Nat.pos_of_ne_zero hn, rfl⟩

theorem Gap.partsRight_part (held : Nat) {lo n : Nat} (hn : n ≤ longestGap) : PartsRight held g.station (g.part lo n) where
  size x hx := by obtain ⟨-, hpos, rfl⟩ := Gap.mem_part hx; exact ⟨hpos, hn⟩
  station x hx := (Gap.mem_part hx).1
  length := .inl (Gap.length_part_le _ _)

/-- Two parts of a gap, of which one is empty or which find room. -/
theorem Gap.partsRight_append {held lo n lo' n' : Nat} (hn : n ≤ longestGap) (hn' : n' ≤ longestGap)
    (hroom : n = 0 ∨ n' = 0 ∨ held < gapCapacity) : PartsRight held g.station (g.part lo n ++ g.part lo' n') where
  size x hx := by
    obtain hx | hx := List.mem_append.1 hx
    · exact (g.partsRight_part held hn).size x hx
    · exact (g.partsRight_part held hn').size x hx
  station x hx := by
    obtain hx | hx := List.mem_append.1 hx
    · exact (Gap.mem_part hx).1
    · exact (Gap.mem_part hx).1
  length := by
    have hlow := g.length_part_le lo n
    have hhigh := g.length_part_le lo' n'
    obtain rfl | rfl | hheld := hroom
    · rw [Gap.part_zero, List.nil_append]; exact .inl hhigh
    · rw [Gap.part_zero, List.append_nil]; exact .inl hlow
    · refine .inr ⟨?_, hheld⟩
      rw [List.length_append]
      omega

/-- R100, R101: what a filler leaves of its gap. -/
theorem Gap.partsRight_fill {q : Seq} {held : Nat} {parts : List Gap} (hsize : g.count ≤ longestGap)
    (hq : g.contains q = true) (h : g.fill q held = some parts) : PartsRight held g.station parts := by
  have hin : (q - g.first).toNat < g.count := of_decide_eq_true hq
  unfold Gap.fill at h
  split at h
  · cases h; exact g.partsRight_part held (by omega)
  · split at h
    · cases h; exact g.partsRight_part held (by omega)
    · split at h
      · next hroom => cases h; exact g.partsRight_append (by omega) (by omega) (.inr (.inr hroom))
      · cases h

theorem Gap.overlap_bounds {first : Seq} {n lo len : Nat} (h : g.overlap first n = some (lo, len)) :
    lo ≤ g.count ∧ lo + len ≤ g.count := by
  unfold Gap.overlap at h
  dsimp only at h
  split at h
  · cases h; omega
  · split at h
    · cases h; omega
    · cases h

end

/-! ### The sequencer's operations -/

section
variable {s t : State}

theorem State.RecoveryRight.setGaps (h : s.RecoveryRight) {gs : List Gap} (hgs : GapsRight gs) :
    (s.setGaps gs).RecoveryRight := ⟨hgs, h.urgent, h.journal⟩

theorem State.RecoveryRight.setSeqEntry (h : s.RecoveryRight) (i : Station) (e : Option SeqEntry) :
    (s.setSeqEntry i e).RecoveryRight := ⟨h.gaps, h.urgent, h.journal⟩

theorem State.RecoveryRight.setEntry (h : s.RecoveryRight) (i : Station) (e : RosterEntry) :
    (s.setEntry i e).RecoveryRight := ⟨h.gaps, h.urgent, h.journal⟩

theorem State.RecoveryRight.count (h : s.RecoveryRight) (k : Counter) : (s.count k).RecoveryRight :=
  ⟨h.gaps, h.urgent, h.journal⟩

theorem State.RecoveryRight.ofJournal (h : s.RecoveryRight) (honly : OnlyJournal s t) (hj : t.journal.Right) :
    t.RecoveryRight :=
  ⟨by rw [honly.sequencer]; exact h.gaps, by rw [honly.urgent]; exact h.urgent, hj⟩

theorem State.RecoveryRight.arrive (h : s.RecoveryRight) (e : PoolEntry) : (s.arrive e).RecoveryRight :=
  h.ofJournal (arrive_onlyJournal s e) (arrive_right h.journal e)

theorem State.RecoveryRight.makeHole (h : s.RecoveryRight) (hole : Hole) : (s.makeHole hole).RecoveryRight :=
  (h.count .holesCreated).arrive _

theorem State.RecoveryRight.accept (h : s.RecoveryRight) (r : Record) : (s.accept r).RecoveryRight := by
  obtain ⟨hu, hj⟩ := accept_right h.urgent h.journal r
  exact ⟨by rw [(accept_onlyJournalPath s r).sequencer]; exact h.gaps, hu, hj⟩

theorem foldl_makeHole_recoveryRight (reason : HoleReason) (gs : List Gap) :
    ∀ {s : State}, s.RecoveryRight → (gs.foldl (fun s g => s.makeHole (g.hole reason)) s).RecoveryRight := by
  induction gs with
  | nil => exact fun h => h
  | cons g gs ih => exact fun h => ih (h.makeHole _)

theorem State.RecoveryRight.closeGaps (h : s.RecoveryRight) (p : Gap → Bool) (reason : HoleReason) :
    (s.closeGaps p reason).RecoveryRight :=
  foldl_makeHole_recoveryRight reason _ (h.setGaps (h.gaps.filter _))

theorem State.RecoveryRight.openRun (h : s.RecoveryRight) (i : Station) (e : SeqEntry) (first : Seq) {run : Nat}
    (hrun : 1 ≤ run) : (s.openRun i e first run).RecoveryRight := by
  unfold State.openRun
  split
  · exact h.makeHole _
  · next hshort =>
    split
    · exact h.makeHole _
    · next hroom => exact h.setGaps (h.gaps.insertGap ⟨hrun, Nat.le_of_not_lt hshort⟩ (Nat.lt_of_not_le hroom))

theorem State.RecoveryRight.advanceNext (h : s.RecoveryRight) (i : Station) (next : Seq) :
    (s.advanceNext i next).RecoveryRight := by
  unfold State.advanceNext
  split
  · exact h
  · exact (h.setSeqEntry _ _).closeGaps _ _

theorem State.RecoveryRight.takeOld (h : s.RecoveryRight) (r : Record) : (s.takeOld r).RecoveryRight := by
  unfold State.takeOld
  split
  · exact h.count _
  · next g hfind =>
    have hg := List.find?_some hfind
    have hmem := List.mem_of_find?_eq_some hfind
    rw [Bool.and_eq_true, beq_iff_eq] at hg
    split
    · exact h
    · next parts hfill =>
      refine (h.setGaps (h.gaps.replaceFirst fun x hx hxp => ?_)).accept r
      rw [Bool.and_eq_true, beq_iff_eq] at hxp
      rw [hxp.1, ← hg.1]
      exact Gap.partsRight_fill (h.gaps.size g hmem).2 hg.2 hfill

theorem seqAbove_iff (a b : Seq) : seqAbove a b = true ↔ 1 ≤ (a - b).toNat ∧ (a - b).toNat < 2 ^ 15 :=
  decide_eq_true_iff

/-- R95: sorting a record leaves the stores right. -/
theorem State.RecoveryRight.takeRecord (h : s.RecoveryRight) (r : Record) : (s.takeRecord r).RecoveryRight := by
  unfold State.takeRecord
  split
  · exact h
  · split
    · exact h
    · split
      · exact (h.advanceNext _ _).accept r
      · split
        · next habove =>
          exact ((h.openRun _ _ _ ((seqAbove_iff _ _).1 habove).1).advanceNext _ _).accept r
        · exact h.takeOld r

theorem takeRecords_recoveryRight (i : Station) (inc : Byte) (ds : List EventData) :
    ∀ {s : State} (first : Seq), s.RecoveryRight → (s.takeRecords i inc first ds).RecoveryRight := by
  induction ds with
  | nil => exact fun _ h => h
  | cons d ds ih => exact fun first h => ih _ (h.takeRecord _)

theorem State.RecoveryRight.raiseWatermark (h : s.RecoveryRight) (i : Station) (wm : Time) :
    (s.raiseWatermark i wm).RecoveryRight := by
  unfold State.raiseWatermark
  split
  · exact h
  · exact h.setSeqEntry _ _

theorem countTimes_recoveryRight (k : Counter) (n : Nat) :
    ∀ {s : State}, s.RecoveryRight → (s.countTimes k n).RecoveryRight := by
  induction n with
  | zero => exact fun h => h
  | succ n ih => exact fun h => ih (h.count k)

theorem State.RecoveryRight.suppress (h : s.RecoveryRight) (i : Station) (inc : Byte) (rs : List SeqRange) :
    (s.suppress i inc rs).RecoveryRight :=
  countTimes_recoveryRight _ _
    (h.setGaps (h.gaps.map (fun g => by split <;> rfl) (fun g => by split <;> rfl)))

theorem State.RecoveryRight.goneGap (h : s.RecoveryRight) (first : Seq) (n : Nat) {g : Gap}
    (hsize : g.count ≤ longestGap) : (s.goneGap first n g).RecoveryRight := by
  unfold State.goneGap
  split
  · exact h
  · next lo len hover =>
    obtain ⟨hlo, hlen⟩ := Gap.overlap_bounds hover
    dsimp only
    split
    · exact h
    · next hroom =>
      refine (h.setGaps (h.gaps.replaceFirst fun x hx hxp => ?_)).makeHole _
      have hstation : x.station = g.station := by
        have hat : (x.station == g.station && x.first == g.first) = true := hxp
        rw [Bool.and_eq_true, beq_iff_eq] at hat
        exact hat.1
      rw [hstation]
      exact g.partsRight_append (by omega) (by omega) (by omega)

theorem foldl_goneGap_recoveryRight (first : Seq) (n : Nat) (gs : List Gap) :
    ∀ {s : State}, s.RecoveryRight → (∀ g ∈ gs, g.count ≤ longestGap) →
      (gs.foldl (fun s g => s.goneGap first n g) s).RecoveryRight := by
  induction gs with
  | nil => exact fun h _ => h
  | cons g gs ih =>
    intro s h hsize
    obtain ⟨hg, hgs⟩ := List.forall_mem_cons.1 hsize
    exact ih (h.goneGap first n hg) hgs

theorem State.RecoveryRight.takeGone (h : s.RecoveryRight) (i : Station) (first : Seq) (n : Nat) :
    (s.takeGone i first n).RecoveryRight :=
  foldl_goneGap_recoveryRight first n _ h fun g hg => (h.gaps.size g (List.mem_of_mem_filter hg)).2

/-- R94: taking a frame leaves the stores right. -/
theorem State.RecoveryRight.sequencerTake (h : s.RecoveryRight) (f : Frame) : (s.sequencerTake f).RecoveryRight := by
  unfold State.sequencerTake
  split
  · exact h
  · unfold State.takeBody
    split
    · exact (takeRecords_recoveryRight _ _ _ _ (h.setSeqEntry _ _)).raiseWatermark _ _
    · split
      · exact h.setSeqEntry _ _
      · refine State.RecoveryRight.raiseWatermark ?_ _ _
        unfold State.trailing
        split
        · next habove => exact (h.openRun _ _ _ ((seqAbove_iff _ _).1 habove).1).advanceNext _ _
        · exact h
    · exact h.suppress _ _ _
    · split
      · exact takeRecords_recoveryRight _ _ _ _ h
      · exact h
    · split
      · exact h.takeGone _ _ _
      · exact h

theorem State.RecoveryRight.takeDeadline (h : s.RecoveryRight) {g : Gap} : (s.takeDeadline g).RecoveryRight := by
  unfold State.takeDeadline
  split
  · exact h.setGaps (h.gaps.replaceFirst fun x hx _ => PartsRight.singleton (h.gaps.size x hx) rfl)
  · exact (h.setGaps (h.gaps.replaceFirst fun _ _ _ => PartsRight.nil)).makeHole _

/-! ### The roster -/

theorem State.RecoveryRight.tellGone (h : s.RecoveryRight) (i : Station) : (s.tellGone i).RecoveryRight :=
  (h.closeGaps _ _).setSeqEntry _ _

theorem State.RecoveryRight.tellRestart (h : s.RecoveryRight) (i : Station) (inc : Byte) :
    (s.tellRestart i inc).RecoveryRight :=
  (h.closeGaps _ _).setSeqEntry _ _

theorem State.RecoveryRight.peerLeaves (h : s.RecoveryRight) (i : Station) : (s.peerLeaves i).RecoveryRight :=
  (h.setEntry i _).tellGone i

/-- R55: the roster's reports leave the stores right. -/
theorem State.RecoveryRight.rosterTake (h : s.RecoveryRight) (f : Frame) (stamp stampL : Time) :
    (s.rosterTake f stamp stampL).RecoveryRight := by
  unfold State.rosterTake
  split
  · unfold State.takeFromAbsent
    dsimp only
    split
    · exact h.setEntry _ _
    · exact (h.setEntry _ _).setSeqEntry _ _
  · dsimp only
    have hkept : State.RecoveryRight
        (if (s.entry f.sender).incarnation = f.incarnation then s.takeSameIncarnation f stamp stampL
          else s.takeNewIncarnation f stamp stampL) := by
      split
      · exact h.setEntry _ _
      · exact ((h.tellRestart f.sender f.incarnation).setEntry _ _).setSeqEntry _ _
    split
    · exact hkept.peerLeaves _
    · exact hkept

end

end Sys2Proof.Machine
end

section
/-! PROOFS. No store exceeds its capacity and no flag goes wrong, in any step. -/

namespace Sys2Proof.Machine

/-! ### The counts of line access (R32 to R36) -/

section
variable {n m : Line}

theorem Line.Right.congr (h : n.Right) (hfailures : m.failures = n.failures) (hbackoff : m.backoff = n.backoff)
    (hrun : m.goodRun = n.goodRun) : m.Right :=
  ⟨hfailures ▸ h.failures, hbackoff ▸ h.backoff, hrun ▸ h.goodRun⟩

theorem Line.right_initial : Line.initial.Right := ⟨Nat.zero_le _, Nat.zero_le _, Nat.zero_le _⟩

theorem Line.Right.unmute (h : n.Right) : n.unmute.Right := by
  unfold Line.unmute
  split
  · exact ⟨Nat.zero_le _, h.backoff, h.goodRun⟩
  · exact h

theorem Line.Right.countFrameEnd (h : n.Right) : n.countFrameEnd.Right := by
  unfold Line.countFrameEnd
  split
  · exact h.congr rfl rfl rfl
  · split
    · split
      · exact ⟨h.failures, Nat.zero_le _, h.goodRun⟩
      · exact ⟨h.failures, (Nat.sub_le _ _).trans h.backoff, h.goodRun⟩
    · exact h

theorem Line.Right.endFrame (h : n.Right) (reference : Option Station) : (n.endFrame reference).Right :=
  h.countFrameEnd.congr rfl rfl rfl

theorem Line.Right.hearGood (h : n.Right) : n.hearGood.Right := by
  unfold Line.hearGood
  dsimp only
  split
  · exact ⟨Nat.zero_le _, h.backoff, Nat.min_le_left _ _⟩
  · exact ⟨h.failures, h.backoff, Nat.min_le_left _ _⟩

theorem Line.Right.failTransmitter (h : n.Right) : n.failTransmitter.Right := by
  unfold Line.failTransmitter
  split
  · next hfew => exact ⟨Nat.le_of_lt hfew, Nat.min_le_right _ _, h.goodRun⟩
  · exact ⟨Nat.le_refl _, Nat.zero_le _, Nat.zero_le _⟩

theorem Line.Right.failAttempt (h : n.Right) (bit : Nat) : (n.failAttempt bit).Right := by
  unfold Line.failAttempt
  dsimp only
  split <;> exact h.failTransmitter.congr rfl rfl rfl

theorem Line.Right.countRotation {s : State} (h : s.line.Right) : s.countRotation.Right := by
  unfold State.countRotation
  dsimp only
  split
  · split
    · exact ⟨h.failures, Nat.zero_le _, h.goodRun⟩
    · exact ⟨h.failures, (Nat.sub_le _ _).trans h.backoff, h.goodRun⟩
  · exact h.congr rfl rfl rfl

theorem Line.Right.tryActive {s : State} (h : s.line.Right) : s.tryActive.line.Right := by
  obtain ⟨-, -, -, heq⟩ | heq := s.tryActive_cases
  · rw [heq]; exact h.congr rfl rfl rfl
  · rw [heq]; exact h

end

/-! ### The outbound side's queues (R80, R81, R88, R89) -/

section
variable {s : State} {o : Outbound}

theorem Outbound.right_initial : Outbound.initial.Right :=
  ⟨by decide, by decide, by decide, by decide⟩

theorem Outbound.Right.sendHead (h : o.Right) (n : Nat) : (o.sendHead n).Right := by
  unfold Outbound.sendHead
  refine ⟨?_, ?_, h.jobs, Nat.min_le_left _ _⟩
  · rw [List.length_drop]
    exact (Nat.sub_le _ _).trans h.outq
  · dsimp only
    rw [List.length_drop]
    omega

theorem Outbound.Right.shrinkJob (h : o.Right) (n : Nat) : (o.shrinkJob n).Right := by
  unfold Outbound.shrinkJob
  split
  · exact h
  · next hjobs =>
    have hlength := h.jobs
    rw [hjobs, List.length_cons] at hlength
    split
    · exact ⟨h.outq, h.history, Nat.le_of_succ_le hlength, h.sentCount⟩
    · exact ⟨h.outq, h.history, hlength, h.sentCount⟩

theorem Outbound.Right.completed (h : o.Right) (b : Body) : (o.completed b).Right := by
  cases b with
  | event wm first recs =>
    have hsent := h.sendHead recs.length
    simp only [Outbound.completed]
    generalize o.sendHead recs.length = sent at hsent
    exact ⟨hsent.outq, hsent.history, hsent.jobs, hsent.sentCount⟩
  | beacon => exact ⟨h.outq, h.history, h.jobs, h.sentCount⟩
  | request => exact h
  | repeatRecords | repeatGone => exact h.shrinkJob _

theorem takeRange_outboundRight (h : s.outbound.Right) (r : SeqRange) : (s.takeRange r).outbound.Right := by
  unfold State.takeRange State.addJob
  split
  · split
    · exact h
    · split
      · next hroom =>
        refine ⟨h.outq, h.history, ?_, h.sentCount⟩
        simp only [List.length_append, List.length_singleton]
        omega
      · exact h
  · exact h

theorem foldl_takeRange_outboundRight (rs : List SeqRange) :
    ∀ {s : State}, s.outbound.Right → (rs.foldl State.takeRange s).outbound.Right := by
  induction rs with
  | nil => exact fun h => h
  | cons r rs ih => exact fun h => ih (takeRange_outboundRight h r)

theorem outboundTake_outboundRight (h : s.outbound.Right) (f : Frame) : (s.outboundTake f).outbound.Right := by
  unfold State.outboundTake
  split
  · split
    · exact foldl_takeRange_outboundRight _ h
    · exact h
  all_goals exact h

theorem peerLeaves_outbound (s : State) (i : Station) : (s.peerLeaves i).outbound = s.outbound :=
  (tellGone_onlyRecovery (s.setEntry i _) i).outbound

theorem rosterTake_outbound (s : State) (f : Frame) (stamp stampL : Time) :
    (s.rosterTake f stamp stampL).outbound = s.outbound := by
  unfold State.rosterTake
  split
  · unfold State.takeFromAbsent
    dsimp only
    split <;> rfl
  · dsimp only
    have hkept :
        (if (s.entry f.sender).incarnation = f.incarnation then s.takeSameIncarnation f stamp stampL
          else s.takeNewIncarnation f stamp stampL).outbound = s.outbound := by
      split
      · rfl
      · exact (tellRestart_onlyRecovery s f.sender f.incarnation).outbound
    split
    · rw [peerLeaves_outbound, hkept]
    · exact hkept

theorem handOn_outboundRight (h : s.outbound.Right) (f : Frame) (stamp stampL : Time) :
    (s.handOn f stamp stampL).outbound.Right := by
  refine outboundTake_outboundRight ?_ f
  rw [(sequencerTake_onlyRecovery _ f).outbound, rosterTake_outbound]
  exact h

theorem State.outqFull_iff : s.outqFull = true ↔ outqCapacity ≤ s.outbound.outq.length := decide_eq_true_iff

theorem State.outqFull_eq_false_iff : s.outqFull = false ↔ s.outbound.outq.length < outqCapacity := by
  rw [← Bool.not_eq_true, State.outqFull_iff, not_le]

theorem createOwn_outboundRight (h : s.outbound.Right) (hroom : s.outqFull = false) (channel : Channel) (code : Byte)
    (timestamp : Time) (unsure : Bool) (value : Option (BitVec 16)) :
    (s.createOwn channel code timestamp unsure value).outbound.Right := by
  rw [createOwn_eq, (accept_onlyJournalPath _ _).outbound]
  refine ⟨?_, h.history, h.jobs, h.sentCount⟩
  have hlength := State.outqFull_eq_false_iff.1 hroom
  simp only [State.enqueueOwn, List.length_append, List.length_singleton]
  omega

theorem confirmCapture_outboundRight (h : s.outbound.Right) (i : InputNo) (p : PendingEdge) :
    (s.confirmCapture i p).outbound.Right := by
  unfold State.confirmCapture
  split
  · exact h
  · next hroom =>
    exact createOwn_outboundRight (s := s.setPendingEdge i none) h (Bool.eq_false_iff.2 hroom) _ _ _ _ _

theorem startPending_outboundRight (h : s.outbound.Right) (i : InputNo) (level : Bool) :
    (s.startPending i level).outbound.Right := by
  have hset : (s.setPendingEdge i (some (s.newPending level))).outbound.Right := h
  unfold State.startPending
  split
  · exact confirmCapture_outboundRight hset _ _
  · exact hset

end

/-! ### The stores of the journal path, by the work that reaches them -/

section
variable {s t : State}

/-- Updates that touch none of these stores. -/
theorem State.RecoveryRight.congr (h : s.RecoveryRight) (hgaps : t.sequencer.gaps = s.sequencer.gaps)
    (hurgent : t.urgent = s.urgent) (hjournal : t.journal = s.journal) : t.RecoveryRight :=
  ⟨hgaps ▸ h.gaps, hurgent ▸ h.urgent, hjournal ▸ h.journal⟩

theorem State.RecoveryRight.tryActive (h : s.RecoveryRight) : s.tryActive.RecoveryRight := by
  obtain ⟨-, -, -, heq⟩ | heq := s.tryActive_cases
  · rw [heq]; exact ⟨h.gaps, h.urgent, h.journal.stream, h.journal.pool⟩
  · rw [heq]; exact h

theorem State.RecoveryRight.settle (h : s.RecoveryRight) : s.settle.RecoveryRight :=
  h.ofJournal (settle_onlyJournal s) (settle_right h.journal)

theorem State.RecoveryRight.takeRange (h : s.RecoveryRight) (r : SeqRange) : (s.takeRange r).RecoveryRight := by
  unfold State.takeRange State.addJob
  split
  · split
    · exact h
    · split <;> exact h.congr rfl rfl rfl
  · exact h

theorem foldl_takeRange_recoveryRight (rs : List SeqRange) :
    ∀ {s : State}, s.RecoveryRight → (rs.foldl State.takeRange s).RecoveryRight := by
  induction rs with
  | nil => exact fun h => h
  | cons r rs ih => exact fun h => ih (h.takeRange r)

theorem State.RecoveryRight.outboundTake (h : s.RecoveryRight) (f : Frame) : (s.outboundTake f).RecoveryRight := by
  unfold State.outboundTake
  split
  · split
    · exact foldl_takeRange_recoveryRight _ h
    · exact h
  all_goals exact h

theorem State.RecoveryRight.handOn (h : s.RecoveryRight) (f : Frame) (stamp stampL : Time) :
    (s.handOn f stamp stampL).RecoveryRight :=
  ((h.rosterTake f stamp stampL).sequencerTake f).outboundTake f

theorem State.RecoveryRight.createOwn (h : s.RecoveryRight) (channel : Channel) (code : Byte) (timestamp : Time)
    (unsure : Bool) (value : Option (BitVec 16)) :
    (s.createOwn channel code timestamp unsure value).RecoveryRight := by
  rw [createOwn_eq]
  exact State.RecoveryRight.accept (s := s.enqueueOwn _) (h.congr rfl rfl rfl) _

theorem State.RecoveryRight.confirmCapture (h : s.RecoveryRight) (i : InputNo) (p : PendingEdge) :
    (s.confirmCapture i p).RecoveryRight := by
  have hended : (s.setPendingEdge i none).RecoveryRight := h.congr rfl rfl rfl
  unfold State.confirmCapture
  split
  · exact h.congr rfl rfl rfl
  · exact hended.createOwn _ _ _ _ _

theorem State.RecoveryRight.startPending (h : s.RecoveryRight) (i : InputNo) (level : Bool) :
    (s.startPending i level).RecoveryRight := by
  have hset : (s.setPendingEdge i (some (s.newPending level))).RecoveryRight := h.congr rfl rfl rfl
  unfold State.startPending
  split
  · exact hset.confirmCapture _ _
  · exact hset

theorem State.RecoveryRight.startSession (h : s.RecoveryRight) : s.startSession.RecoveryRight :=
  ⟨by rw [(startSession_onlyJournal s).sequencer]; exact h.gaps,
    by rw [(startSession_onlyJournal s).urgent]; exact h.urgent,
    restartIdleTimer_right (restartIdleTimer_right (s := State.restartBeaconTimer { s with line := _, clock := _ })
      h.journal _) _⟩

theorem State.RecoveryRight.readEntries (h : s.RecoveryRight) (id : StreamId) (max : Nat) :
    (s.readEntries id max).RecoveryRight := by
  obtain ⟨data, honly⟩ := readEntries_onlyJournal s id max
  refine State.RecoveryRight.ofJournal (s := s.answer .ok data) (h.congr rfl rfl rfl) honly
    (releaseReady_right (s := State.answer _ _ _) (restartIdleTimer_right (h.journal.setStream id ⟨?_, fun hset => by cases hset⟩) id))
  rw [List.length_drop]
  exact (Nat.sub_le _ _).trans (h.journal.stream id).length

theorem State.RecoveryRight.requestCompleted (h : s.RecoveryRight) (covered : List (Station × Seq)) :
    (s.requestCompleted covered).RecoveryRight :=
  h.setGaps (h.gaps.map (fun g => by split <;> rfl) (fun g => by split <;> rfl))

theorem recoveryRight_initial {s : State} (hgaps : s.sequencer.gaps = []) (hurgent : s.urgent = .initial)
    (hjournal : s.journal = .initial) : s.RecoveryRight :=
  ⟨by rw [hgaps]; exact ⟨nofun, List.Pairwise.nil, Nat.zero_le _⟩, by rw [hurgent]; exact ⟨Nat.zero_le _, nofun⟩,
    by rw [hjournal]; exact ⟨fun id => by cases id <;> exact ⟨Nat.zero_le _, nofun⟩, Nat.zero_le _⟩⟩

end

/-! ### The work of a command -/

section
variable {s u t : State}

theorem Work.lineRight (h : Work s u) (hs : s.line.Right) : u.line.Right := by
  cases h with
  | reset | endSession => exact Line.right_initial
  | startSession => rw [(startSession_onlyJournal s).line]; exact hs.congr rfl rfl rfl
  | unmute => exact hs.unmute
  | startLeaving | passOpportunity | startFrame | openFrame | takeRelease => exact hs.congr rfl rfl rfl
  | endOwnFrame surplus => cases surplus <;> exact hs.endFrame _
  | endUnreadFrame => exact ⟨(hs.endFrame none).failures, (hs.endFrame none).backoff, Nat.zero_le _⟩
  | endMalformedFrame sender =>
    exact Line.Right.tryActive (s := s.endMalformedFrame sender)
      ⟨(hs.endFrame (some sender)).failures, (hs.endFrame (some sender)).backoff, Nat.zero_le _⟩
  | duplicateNumber => exact (hs.endFrame _).hearGood.congr rfl rfl rfl
  | takeGoodFrame f stamp stampL =>
    refine Line.Right.tryActive ?_
    rw [(handOn_onlyTaking _ f stamp stampL).line]
    exact (hs.endFrame _).hearGood.congr rfl rfl rfl
  | completeFrame f => rw [completeFrame_eq]; exact ⟨Nat.zero_le _, hs.backoff, hs.goodRun⟩
  | failAttempt bit => exact hs.failAttempt bit
  | countRotation => exact Line.Right.tryActive (hs.countRotation.congr rfl rfl rfl)
  | takePoint => exact Line.Right.tryActive hs
  | increment inputs level =>
    have hline := (settle_onlyJournal s).line
    have hpass := passMicrosecond_sameAccess s.settle.line s.settle.setup.bitTime s.settle.fallStamp s.settle.l
      s.settle.receiveData level
    exact Line.Right.congr (hline ▸ hs) hpass.failures hpass.backoff hpass.goodRun
  | restartIdleTimer id => rw [(restartIdleTimer_onlyJournal s id).line]; exact hs
  | readEntries id max => rw [(readEntries_onlyJournal s id max).choose_spec.line]; exact hs
  | submit => rw [(createOwn_onlyCapturing s _ _ _ _ _).line]; exact hs
  | peerLeaves i => rw [(peerLeaves_onlyTaking s i).line]; exact hs
  | confirmCapture i p => rw [(confirmCapture_onlyCapturing s i p).line]; exact hs
  | startEdge i level => rw [(startEdge_onlyCapturing s i level).line]; exact hs
  | takeDeadline g => rw [(takeDeadline_onlyRecovery s g).line]; exact hs
  | _ => exact hs

theorem Work.outboundRight (h : Work s u) (hs : s.outbound.Right) : u.outbound.Right := by
  have hkept : ∀ {o : Outbound}, o.outq = s.outbound.outq → o.history = s.outbound.history →
      o.jobs = s.outbound.jobs → o.sentCount = s.outbound.sentCount → o.Right :=
    fun h1 h2 h3 h4 => ⟨h1 ▸ hs.outq, h2 ▸ hs.history, h3 ▸ hs.jobs, h4 ▸ hs.sentCount⟩
  cases h with
  | reset | endSession => exact Outbound.right_initial
  | startSession => rw [(startSession_onlyJournal s).outbound]; exact hkept rfl rfl rfl rfl
  | duplicateNumber | beaconExpiry => exact hkept rfl rfl rfl rfl
  | submit channel code unsure value hmode hroom => exact createOwn_outboundRight hs hroom _ _ _ _ _
  | endOwnFrame surplus => cases surplus <;> exact hs
  | takeGoodFrame f stamp stampL =>
    rw [State.outbound_tryActive]
    exact handOn_outboundRight (s := s.endGoodFrame f.sender) hs f stamp stampL
  | completeFrame f =>
    rw [completeFrame_eq]
    have hdone := hs.completed f.frame.body
    exact ⟨hdone.outq, hdone.history, hdone.jobs, hdone.sentCount⟩
  | endMalformedFrame | countRotation | takePoint => rw [State.outbound_tryActive]; exact hs
  | increment => exact (settle_onlyJournal s).outbound ▸ hs
  | confirmCapture i p => exact confirmCapture_outboundRight hs i p
  | startEdge i level => exact startPending_outboundRight (s := s.setInput _ i level) hs i level
  | restartIdleTimer id => rw [(restartIdleTimer_onlyJournal s id).outbound]; exact hs
  | readEntries id max => rw [(readEntries_onlyJournal s id max).choose_spec.outbound]; exact hs
  | peerLeaves i => rw [peerLeaves_outbound]; exact hs
  | takeDeadline g => rw [(takeDeadline_onlyRecovery s g).outbound]; exact hs
  | _ => exact hs

theorem Work.recoveryRight (h : Work s u) (hs : s.RecoveryRight) : u.RecoveryRight := by
  cases h with
  | reset | endSession => exact recoveryRight_initial rfl rfl rfl
  | restartIdleTimer id => exact hs.ofJournal (restartIdleTimer_onlyJournal s id) (restartIdleTimer_right hs.journal id)
  | readEntries id max => exact hs.readEntries id max
  | readSlot => exact ⟨hs.gaps, hs.urgent, hs.journal.stream, hs.journal.pool⟩
  | readUrgent n rest hnotes =>
    refine ⟨hs.gaps, ⟨?_, ?_⟩, hs.journal⟩
    · have hlength := hs.urgent.length
      rw [hnotes] at hlength
      exact Nat.le_of_succ_le hlength
    · cases rest <;> simp
  | startSession => exact hs.startSession
  | submit => exact hs.createOwn _ _ _ _ _
  | endOwnFrame surplus => cases surplus <;> exact hs.congr rfl rfl rfl
  | endMalformedFrame | countRotation | takePoint => exact State.RecoveryRight.tryActive (hs.congr rfl rfl rfl)
  | takeGoodFrame f stamp stampL =>
    exact (State.RecoveryRight.handOn (s := s.endGoodFrame f.sender) (hs.congr rfl rfl rfl) f stamp stampL).tryActive
  | completeFrame f =>
    rw [completeFrame_eq]
    exact (hs.requestCompleted f.covered).congr rfl rfl rfl
  | increment => exact hs.settle.congr rfl rfl rfl
  | peerLeaves i => exact hs.peerLeaves i
  | confirmCapture i p => exact hs.confirmCapture i p
  | startEdge i level =>
    have hinput : (s.setInput s.capture.levels i level).RecoveryRight := hs.congr rfl rfl rfl
    exact hinput.startPending i level
  | takeDeadline g => exact hs.takeDeadline
  | idleExpiry id =>
    refine ⟨hs.gaps, hs.urgent, hs.journal.setStream id ⟨(hs.journal.stream id).length, fun htimeout => ?_⟩⟩
    obtain hset | hheld := Bool.or_eq_true_iff.1 htimeout
    · exact (hs.journal.stream id).timeout hset
    · simpa using hheld
  | _ => exact hs.congr rfl rfl rfl

theorem Work.storesRight (h : Work s u) (hs : s.StoresRight) : u.StoresRight := by
  obtain ⟨hline, hout, hrec⟩ := (storesRight_iff s).1 hs
  exact (storesRight_iff u).2 ⟨h.lineRight hline, h.outboundRight hout, h.recoveryRight hrec⟩

theorem Finish.storesRight (h : Finish u t) (hu : u.StoresRight) : t.StoresRight := by
  obtain ⟨hline, hout, hrec⟩ := (storesRight_iff u).1 hu
  refine (storesRight_iff t).2 ?_
  cases h with
  | plain => exact ⟨hline, hout, hrec⟩
  | settled =>
    have honly := settle_onlyJournal u
    exact ⟨honly.line ▸ hline, honly.outbound ▸ hout, hrec.settle⟩
  | answered => exact ⟨hline, hout, hrec.congr rfl rfl rfl⟩

/-- The command at the front of the queue is all that a step runs. -/
theorem step_cases (h : step s = .next t) : t = s ∨ ∃ c rest, exec c { s with pending := rest } = .next t := by
  unfold step at h
  split at h
  · cases h; exact .inl rfl
  · next c rest _ => exact .inr ⟨c, rest, h⟩

end

/-- Settles O58: the work of a command keeps each store right, and so does its finish. -/
theorem storesStayRight : Obligations.StoresStayRight := by
  intro s t hs hstep
  obtain rfl | ⟨c, rest, hexec⟩ := step_cases hstep
  · exact hs
  · obtain ⟨u, hwork, hfinish⟩ := exec_cases hexec
    obtain ⟨hline, hout, hrec⟩ := (storesRight_iff s).1 hs
    have hqueue : ({ s with pending := rest } : State).StoresRight :=
      (storesRight_iff _).2 ⟨hline, hout, hrec.congr rfl rfl rfl⟩
    exact hfinish.storesRight (hwork.storesRight hqueue)

end Sys2Proof.Machine
end

section
/-! PROOFS. The blocks' states stay in agreement in every step: the tables, the own entry, a frame in flight, pending
states, the slew debt, and SETUP. -/

namespace Sys2Proof.Machine

/-! ### The agreement of the sequencer's and the roster's tables (R92, R93) -/

/-- The incarnation under which the sequencer follows a station, if it does. -/
def State.followed (s : State) (i : Station) : Option Byte := (s.seqEntry i).map (·.incarnation)

/-- The tables agree: a peer that is not ABSENT is followed under its incarnation, and no other station is followed. -/
theorem tablesAgree_iff (s : State) :
    s.TablesAgree ↔
      ∀ i, s.followed i =
        if i = s.own ∨ (s.entry i).state = .absent then none else some (s.entry i).incarnation := by
  unfold State.followed
  constructor
  · intro h i
    split
    · next hnot =>
      obtain rfl | habsent := hnot
      · rw [h.own]; rfl
      · by_cases hi : i = s.own
        · rw [hi, h.own]; rfl
        · have hnone := mt (h.peer i hi).1 (not_not.2 habsent)
          rw [Bool.not_eq_true, Option.isSome_eq_false_iff, Option.isNone_iff_eq_none] at hnone
          rw [hnone]; rfl
    · next hpeer =>
      rw [not_or] at hpeer
      obtain ⟨q, hq⟩ := Option.isSome_iff_exists.1 ((h.peer i hpeer.1).2 hpeer.2)
      rw [hq, ← h.incarnation i q hpeer.1 hq]; rfl
  · intro h
    refine ⟨?_, fun i hi => ?_, fun i q hi hq => ?_⟩
    · have hown := h s.own
      rw [if_pos (.inl rfl), Option.map_eq_none_iff] at hown
      exact hown
    · have hfollowed := h i
      rw [← Option.isSome_map, hfollowed]
      by_cases habsent : (s.entry i).state = .absent <;> simp [hi, habsent]
    · have hfollowed := h i
      rw [hq] at hfollowed
      by_cases habsent : (s.entry i).state = .absent
      · simp [habsent] at hfollowed
      · simpa [hi, habsent] using hfollowed

section
variable {s t : State}

theorem SameFollowed.followed (h : SameFollowed s t) (i : Station) : t.followed i = s.followed i := h i

/-- Updates that keep who is followed and the peers' states and incarnations. -/
theorem State.TablesAgree.congr (h : s.TablesAgree) (hown : t.own = s.own)
    (hstate : ∀ i, i ≠ s.own → (t.entry i).state = (s.entry i).state)
    (hinc : ∀ i, i ≠ s.own → (t.entry i).incarnation = (s.entry i).incarnation)
    (hfollowed : ∀ i, t.followed i = s.followed i) : t.TablesAgree := by
  refine (tablesAgree_iff t).2 fun i => ?_
  rw [hfollowed, (tablesAgree_iff s).1 h i, hown]
  by_cases hi : i = s.own
  · rw [if_pos (.inl hi), if_pos (.inl hi)]
  · rw [hstate i hi, hinc i hi]

/-- Updates that touch neither table. -/
theorem State.TablesAgree.ofEq (h : s.TablesAgree) (hsetup : t.setup = s.setup) (hroster : t.roster = s.roster)
    (hfollowed : SameFollowed s t) : t.TablesAgree := by
  have hentry : ∀ i, t.entry i = s.entry i := fun i => congrArg (·[i.val]) hroster
  exact h.congr (congrArg Setup.station hsetup) (fun i _ => by rw [hentry]) (fun i _ => by rw [hentry]) hfollowed

/-- Updates of the own entry. -/
theorem State.TablesAgree.ownEntry (h : s.TablesAgree) (hsetup : t.setup = s.setup) {e : RosterEntry}
    (hroster : t.roster = s.roster.set s.own.val e) (hfollowed : SameFollowed s t) : t.TablesAgree := by
  have hentry : ∀ i, i ≠ s.own → t.entry i = s.entry i := fun i hi =>
    (congrArg (·[i.val]) hroster).trans ((State.entry_setEntry s s.own i e).trans (if_neg hi))
  exact h.congr (congrArg Setup.station hsetup) (fun i hi => by rw [hentry i hi]) (fun i hi => by rw [hentry i hi])
    hfollowed

/-- An update of one peer that follows it under its incarnation, or not at all where it is ABSENT. -/
theorem State.TablesAgree.update (h : s.TablesAgree) {i : Station} (hi : i ≠ s.own) (hown : t.own = s.own)
    (hentry : ∀ j, j ≠ i → t.entry j = s.entry j) (hothers : ∀ j, j ≠ i → t.followed j = s.followed j)
    (hself : t.followed i = if (t.entry i).state = .absent then none else some (t.entry i).incarnation) :
    t.TablesAgree := by
  refine (tablesAgree_iff t).2 fun j => ?_
  by_cases hj : j = i
  · subst hj
    rw [hself, hown]
    simp [hi]
  · rw [hothers j hj, hentry j hj, hown]
    exact (tablesAgree_iff s).1 h j

end

/-! ### The roster's reports -/

section
variable (s : State)

theorem seqEntry_tellGone (i j : Station) : (s.tellGone i).seqEntry j = if j = i then none else s.seqEntry j := by
  rw [(tellGone_onlyJournal s i).seqEntry, State.seqEntry_setSeqEntry, State.seqEntry_setGaps]

theorem seqEntry_tellRestart (i j : Station) (inc : Byte) :
    (s.tellRestart i inc).seqEntry j = if j = i then some ⟨inc, none, 0⟩ else s.seqEntry j := by
  rw [(tellRestart_onlyJournal s i inc).seqEntry, State.seqEntry_setSeqEntry, State.seqEntry_setGaps]

theorem entry_peerLeaves (i j : Station) :
    (s.peerLeaves i).entry j = if j = i then { s.entry i with state := .absent, mark := true } else s.entry j := by
  show ((s.setEntry i _).tellGone i).entry j = _
  rw [(tellGone_onlyRecovery _ i).entry, State.entry_setEntry]

theorem seqEntry_peerLeaves (i j : Station) :
    (s.peerLeaves i).seqEntry j = if j = i then none else s.seqEntry j := by
  show ((s.setEntry i _).tellGone i).seqEntry j = _
  rw [seqEntry_tellGone, State.seqEntry_setEntry]

end

section
variable {s t : State}

theorem State.TablesAgree.peerLeaves (h : s.TablesAgree) {i : Station} (hi : i ≠ s.own) :
    (s.peerLeaves i).TablesAgree := by
  refine h.update hi (peerLeaves_onlyTaking s i).own (fun j hj => ?_) (fun j hj => ?_) ?_
  · rw [entry_peerLeaves, if_neg hj]
  · unfold State.followed; rw [seqEntry_peerLeaves, if_neg hj]
  · unfold State.followed; rw [seqEntry_peerLeaves, entry_peerLeaves]; simp

theorem State.TablesAgree.takeFromAbsent (h : s.TablesAgree) {f : Frame} (hi : f.sender ≠ s.own) (stamp stampL : Time)
    (habsent : (s.entry f.sender).state = .absent) : (s.takeFromAbsent f stamp stampL).TablesAgree := by
  have hnone : s.followed f.sender = none := by rw [(tablesAgree_iff s).1 h, if_pos (.inr habsent)]
  unfold State.takeFromAbsent
  dsimp only
  split
  · refine h.update hi rfl (fun j hj => ?_) (fun j hj => rfl) ?_
    · rw [State.entry_setEntry, if_neg hj]
    · rw [State.entry_setEntry_self]
      exact hnone.trans (if_pos habsent).symm
  · refine h.update hi rfl (fun j hj => ?_) (fun j hj => ?_) ?_
    · exact (State.entry_setEntry s _ j _).trans (if_neg hj)
    · unfold State.followed State.tellFirstFrame; rw [State.seqEntry_setSeqEntry, if_neg hj]; rfl
    · unfold State.followed State.tellFirstFrame; simp

theorem State.TablesAgree.takeSameIncarnation (h : s.TablesAgree) {f : Frame} (hi : f.sender ≠ s.own)
    (stamp stampL : Time) (hpresent : (s.entry f.sender).state ≠ .absent) :
    (s.takeSameIncarnation f stamp stampL).TablesAgree := by
  unfold State.takeSameIncarnation
  refine h.update hi rfl (fun j hj => ?_) (fun j hj => rfl) ?_
  · exact (State.entry_setEntry s _ j _).trans (if_neg hj)
  · rw [State.entry_setEntry_self, if_neg nofun]
    refine ((tablesAgree_iff s).1 h f.sender).trans (if_neg ?_)
    exact not_or.2 ⟨hi, hpresent⟩

theorem State.TablesAgree.takeNewIncarnation (h : s.TablesAgree) {f : Frame} (hi : f.sender ≠ s.own)
    (stamp stampL : Time) : (s.takeNewIncarnation f stamp stampL).TablesAgree := by
  have honly := takeNewIncarnation_onlyTaking s f stamp stampL
  have hentry : ∀ j, (s.takeNewIncarnation f stamp stampL).entry j =
      if j = f.sender then
        { s.refreshed f stamp stampL (s.entry f.sender) with
          incarnation := f.incarnation, state := .joining, mark := true }
      else s.entry j := fun j => by
    show (State.setEntry _ _ _).entry j = _
    rw [State.entry_setEntry, (tellRestart_onlyRecovery s _ _).entry]
  have hseq : ∀ j, (s.takeNewIncarnation f stamp stampL).seqEntry j =
      if j = f.sender then some ⟨f.incarnation, none, 0⟩ else s.seqEntry j := fun j => by
    show (State.setSeqEntry _ _ _).seqEntry j = _
    rw [State.seqEntry_setSeqEntry, State.seqEntry_setEntry, seqEntry_tellRestart]
    split <;> rfl
  refine h.update hi honly.own (fun j hj => ?_) (fun j hj => ?_) ?_
  · rw [hentry, if_neg hj]
  · unfold State.followed; rw [hseq, if_neg hj]
  · unfold State.followed; rw [hseq, hentry]; simp

theorem State.TablesAgree.rosterTake (h : s.TablesAgree) {f : Frame} (hi : f.sender ≠ s.own) (stamp stampL : Time) :
    (s.rosterTake f stamp stampL).TablesAgree := by
  unfold State.rosterTake
  split
  · next habsent => exact h.takeFromAbsent hi stamp stampL habsent
  · next hpresent =>
    dsimp only
    have hkept : State.TablesAgree
          (if (s.entry f.sender).incarnation = f.incarnation then s.takeSameIncarnation f stamp stampL
            else s.takeNewIncarnation f stamp stampL) ∧
        (if (s.entry f.sender).incarnation = f.incarnation then s.takeSameIncarnation f stamp stampL
            else s.takeNewIncarnation f stamp stampL).own = s.own := by
      split
      · exact ⟨h.takeSameIncarnation hi stamp stampL hpresent, rfl⟩
      · exact ⟨h.takeNewIncarnation hi stamp stampL, (takeNewIncarnation_onlyTaking s f stamp stampL).own⟩
    split
    · exact hkept.1.peerLeaves (by rw [hkept.2]; exact hi)
    · exact hkept.1

theorem foldl_takeRange_roster (rs : List SeqRange) : ∀ s : State,
    (rs.foldl State.takeRange s).roster = s.roster ∧ (rs.foldl State.takeRange s).sequencer = s.sequencer := by
  have hrange : ∀ (s : State) r, (s.takeRange r).roster = s.roster ∧ (s.takeRange r).sequencer = s.sequencer := by
    intro s r
    unfold State.takeRange State.addJob
    split
    · split
      · exact ⟨rfl, rfl⟩
      · split <;> exact ⟨rfl, rfl⟩
    · exact ⟨rfl, rfl⟩
  induction rs with
  | nil => exact fun s => ⟨rfl, rfl⟩
  | cons r rs ih => exact fun s => ⟨(ih _).1.trans (hrange s r).1, (ih _).2.trans (hrange s r).2⟩

theorem outboundTake_roster (s : State) (f : Frame) :
    (s.outboundTake f).roster = s.roster ∧ (s.outboundTake f).sequencer = s.sequencer := by
  unfold State.outboundTake
  split
  · split
    · exact foldl_takeRange_roster _ s
    · exact ⟨rfl, rfl⟩
  all_goals exact ⟨rfl, rfl⟩

theorem State.TablesAgree.handOn (h : s.TablesAgree) {f : Frame} (hi : f.sender ≠ s.own) (stamp stampL : Time) :
    (s.handOn f stamp stampL).TablesAgree := by
  have htaken := sequencerTake_followed (s.rosterTake f stamp stampL) f
  have honly := sequencerTake_onlyRecovery (s.rosterTake f stamp stampL) f
  obtain ⟨hroster, hsequencer⟩ := outboundTake_roster ((s.rosterTake f stamp stampL).sequencerTake f) f
  have hentry : ∀ i, (s.handOn f stamp stampL).entry i = (s.rosterTake f stamp stampL).entry i := fun i =>
    (congrArg (·[i.val]) hroster).trans (honly.entry i)
  refine (h.rosterTake hi stamp stampL).congr ?_ (fun i _ => by rw [hentry]) (fun i _ => by rw [hentry]) fun i => ?_
  · exact (outboundTake_onlyTaking _ f).own.trans honly.own
  · have hseq : (s.handOn f stamp stampL).seqEntry i = ((s.rosterTake f stamp stampL).sequencerTake f).seqEntry i :=
      congrArg (fun q : Sequencer => q.table[i.val]) hsequencer
    unfold State.followed
    rw [hseq]
    exact htaken i

theorem State.TablesAgree.tryActive (h : s.TablesAgree) : s.tryActive.TablesAgree := by
  obtain ⟨-, -, -, heq⟩ | heq := s.tryActive_cases
  · rw [heq]; exact h.ownEntry rfl rfl fun _ => rfl
  · rw [heq]; exact h

end

/-! ### The own entry (R64) -/

section
variable {s t : State}

theorem State.OwnEntryRight.congr (h : s.OwnEntryRight) (hown : t.own = s.own)
    (hmode : t.mode.working = s.mode.working)
    (hstate : (t.entry s.own).state = (s.entry s.own).state) : t.OwnEntryRight := by
  unfold State.OwnEntryRight at *
  rw [hown, hmode, hstate, h]

theorem entry_rosterTake_of_ne (s : State) (f : Frame) (stamp stampL : Time) {j : Station} (hj : j ≠ f.sender) :
    (s.rosterTake f stamp stampL).entry j = s.entry j := by
  have hset : ∀ (t : State) e, (t.setEntry f.sender e).entry j = t.entry j := fun t e =>
    (State.entry_setEntry t _ j e).trans (if_neg hj)
  unfold State.rosterTake
  split
  · unfold State.takeFromAbsent
    dsimp only
    split
    · exact hset _ _
    · exact hset _ _
  · dsimp only
    have hkept :
        (if (s.entry f.sender).incarnation = f.incarnation then s.takeSameIncarnation f stamp stampL
          else s.takeNewIncarnation f stamp stampL).entry j = s.entry j := by
      split
      · exact hset _ _
      · exact (hset _ _).trans ((tellRestart_onlyRecovery s _ _).entry j)
    split
    · rw [entry_peerLeaves, if_neg hj, hkept]
    · exact hkept

theorem State.OwnEntryRight.handOn (h : s.OwnEntryRight) {f : Frame} (hi : f.sender ≠ s.own) (stamp stampL : Time) :
    (s.handOn f stamp stampL).OwnEntryRight := by
  have honly := handOn_onlyTaking s f stamp stampL
  have hroster := (outboundTake_roster ((s.rosterTake f stamp stampL).sequencerTake f) f).1
  have hentry : (s.handOn f stamp stampL).entry s.own = s.entry s.own :=
    ((congrArg (·[s.own.val]) hroster).trans ((sequencerTake_onlyRecovery _ f).entry s.own)).trans
      (entry_rosterTake_of_ne s f stamp stampL hi.symm)
  exact h.congr honly.own (congrArg Mode.working honly.mode) (by rw [hentry])

theorem State.OwnEntryRight.ofEq (h : s.OwnEntryRight) (hsetup : t.setup = s.setup) (hroster : t.roster = s.roster)
    (hmode : t.mode = s.mode) : t.OwnEntryRight :=
  h.congr (congrArg Setup.station hsetup) (congrArg Mode.working hmode)
    (congrArg (fun r : Vector RosterEntry 32 => (r[s.own.val]).state) hroster)

theorem State.OwnEntryRight.tryActive (h : s.OwnEntryRight) : s.tryActive.OwnEntryRight := by
  obtain ⟨-, -, -, heq⟩ | heq := s.tryActive_cases
  · rw [heq]
    unfold State.OwnEntryRight
    exact congrArg RosterEntry.state (State.entry_setEntry_self _ _ _)
  · rw [heq]; exact h

/-! ### A frame in flight and pending states (R18, R37, R73, R75) -/

theorem State.FlightRight.congr (h : s.FlightRight) (hflight : t.line.flight ≠ none → s.line.flight ≠ none)
    (hmode : s.mode.working = true → t.mode.working = true) (hstate : t.line.lineState = s.line.lineState)
    (htransmitter : t.line.transmitter = s.line.transmitter) : t.FlightRight := by
  intro f hf
  obtain ⟨g, hg⟩ := Option.ne_none_iff_exists'.1 (hflight (by rw [hf]; nofun))
  obtain ⟨hwork, hline, hready⟩ := h g hg
  exact ⟨hmode hwork, hstate.trans hline, htransmitter.trans hready⟩

theorem State.FlightRight.ofLine (h : s.FlightRight) (hline : t.line = s.line) : t.FlightRight := by
  unfold State.FlightRight State.mode at *
  rwa [hline]

theorem flightRight_of_none (h : s.line.flight = none) : s.FlightRight := fun f hf => by rw [h] at hf; cases hf

theorem State.FlightRight.tryActive (h : s.FlightRight) : s.tryActive.FlightRight := by
  obtain ⟨hmode, -, -, heq⟩ | heq := s.tryActive_cases
  · rw [heq]; exact h.congr id (fun _ => rfl) rfl rfl
  · rw [heq]; exact h

theorem pendingEdge_eq (h : t.capture.pendingEdges = s.capture.pendingEdges) (i : InputNo) :
    t.pendingEdge i = s.pendingEdge i := congrArg (·[i.val]) h

theorem State.PendingRight.congr (h : s.PendingRight) (hpending : t.capture.pendingEdges = s.capture.pendingEdges)
    (hmode : s.mode = .active → t.mode = .active) : t.PendingRight :=
  fun i hi => hmode (h i (pendingEdge_eq hpending i ▸ hi))

theorem pendingRight_of_cleared (h : s.capture.pendingEdges = Vector.replicate 16 none) : s.PendingRight :=
  fun i hi => absurd ((congrArg (·[i.val]) h).trans (Vector.getElem_replicate i.isLt)) hi

theorem State.PendingRight.tryActive (h : s.PendingRight) : s.tryActive.PendingRight := by
  obtain ⟨-, -, -, heq⟩ | heq := s.tryActive_cases
  · rw [heq]; exact h.congr rfl fun _ => rfl
  · rw [heq]; exact h

theorem pendingRight_of_active (h : s.mode = .active) : s.PendingRight := fun _ _ => h

/-! ### The slew debt (R40, R48) -/

theorem Clock.debt_increment_le (c : Clock) : c.increment.debt ≤ c.debt := by
  unfold Clock.increment
  dsimp only
  split
  · exact Nat.sub_le _ _
  · exact Nat.le_refl _

theorem Clock.debt_stepOrDebt_le {c : Clock} {limit : Nat} (h : c.debt ≤ 4 * limit) (m : Option Int) :
    (c.stepOrDebt limit m).debt ≤ 4 * limit := by
  unfold Clock.stepOrDebt
  split
  · exact h
  · split
    · exact h
    · split
      · show c.debt + min _ (4 * limit - c.debt) ≤ 4 * limit
        omega
      · exact h

theorem State.debt_clockAfterPoint_le (h : s.DebtBounded) (p : Time) :
    (s.clockAfterPoint p).debt ≤ 4 * s.setup.stepLimit := by
  refine (Clock.debt_advanceState _ _ _ _).trans_le ?_
  unfold State.corrected
  split
  · unfold Clock.jump
    split <;> exact h
  · exact Clock.debt_stepOrDebt_le h _

end

/-! ### SETUP (R19, R41, R54, R79, R92, R124, R127, R148, R160) -/

section
variable {s u : State}

theorem State.SetupClear.mode (h : s.SetupClear) : s.mode = .setup := congrArg Line.mode h.line

theorem State.SetupClear.entry (h : s.SetupClear) (i : Station) : s.entry i = .initial := by
  unfold State.entry
  rw [h.roster]
  exact Vector.getElem_replicate i.isLt

theorem State.SetupClear.seqEntry (h : s.SetupClear) (i : Station) : s.seqEntry i = none := by
  unfold State.seqEntry
  rw [h.sequencer]
  exact Vector.getElem_replicate i.isLt

theorem State.SetupClear.pendingEdges (h : s.SetupClear) : s.capture.pendingEdges = Vector.replicate 16 none := by
  rw [h.capture]; rfl

theorem State.SetupClear.stream (h : s.SetupClear) (id : StreamId) : s.stream id = .initial := by
  unfold State.stream
  rw [h.journal]
  cases id <;> rfl

/-- Where no entry of a station is held, the tables agree. -/
theorem tablesAgree_of_empty (hentry : ∀ i, s.entry i = .initial) (hseq : ∀ i, s.seqEntry i = none) : s.TablesAgree :=
  (tablesAgree_iff s).2 fun i => by
    rw [if_pos (.inr (congrArg RosterEntry.state (hentry i)))]
    exact congrArg (Option.map SeqEntry.incarnation) (hseq i)

/-- A clear SETUP state meets the whole invariant. -/
theorem State.SetupClear.blocksRight (h : s.SetupClear) : s.BlocksRight where
  tables := tablesAgree_of_empty h.entry h.seqEntry
  ownEntry := by
    unfold State.OwnEntryRight
    rw [h.entry, h.mode]; rfl
  flight := flightRight_of_none (congrArg Line.flight h.line)
  pendingEdges := pendingRight_of_cleared h.pendingEdges
  debt := by
    unfold State.DebtBounded
    rw [h.clock]
    exact Nat.zero_le _
  clear _ := h

theorem setupClear_reset (host : HostPort) (inReset : Bool) :
    ({ s.fullReset with host := host, inReset := inReset } : State).SetupClear :=
  ⟨rfl, rfl, rfl, rfl, rfl, rfl, rfl, rfl, rfl, rfl, rfl⟩

theorem setupClear_endSession : s.endSession.SetupClear := ⟨rfl, rfl, rfl, rfl, rfl, rfl, rfl, rfl, rfl, rfl, rfl⟩

/-- The start of a session from a clear state. -/
theorem State.SetupClear.startSession (h : s.SetupClear) : s.startSession.BlocksRight := by
  have honly := startSession_onlyJournal s
  have hmode : s.startSession.mode = .listening := honly.mode
  have hentry : ∀ i, s.startSession.entry i = .initial := fun i => (honly.entry i).trans (h.entry i)
  refine ⟨tablesAgree_of_empty hentry fun i => (honly.seqEntry i).trans (h.seqEntry i), ?_, ?_, ?_, ?_, ?_⟩
  · unfold State.OwnEntryRight
    rw [hentry, hmode]; rfl
  · exact flightRight_of_none ((congrArg Line.flight honly.line).trans (congrArg Line.flight h.line))
  · exact pendingRight_of_cleared ((congrArg Capture.pendingEdges honly.capture).trans h.pendingEdges)
  · unfold State.DebtBounded
    rw [honly.clock, h.clock]
    exact Nat.zero_le _
  · intro hsetup
    rw [hmode] at hsetup
    cases hsetup

theorem clearMarks_initial (h : s.roster = Roster.initial) : s.clearMarks = s := by
  have hroster : s.roster.map (fun e => { e with mark := false }) = s.roster := by
    rw [h]
    exact Vector.map_replicate
  unfold State.clearMarks
  rw [hroster]

/-- In SETUP L and ST go on together, and nothing else happens in an increment. -/
theorem State.SetupClear.increment (h : s.SetupClear) (inputs : BitVec 16) (level : Bool) :
    (s.settle.increment inputs level).SetupClear := by
  have hsettle : s.settle = s := settle_of_not_working s (by rw [h.mode]; rfl)
  rw [hsettle]
  have hline : s.line.passMicrosecond s.setup.bitTime s.fallStamp s.l s.receiveData level = s.line :=
    if_neg (by rw [h.line]; exact nofun)
  refine ⟨?_, ?_, h.roster, h.outbound, h.sequencer, h.urgent, h.journal, hline.trans h.line, h.counters,
    h.lossAdvanced, h.clockChanged⟩
  · show s.clock.increment = { Clock.initial with l := s.clock.increment.l, st := s.clock.increment.l }
    rw [h.clock]; rfl
  · show s.capture.firstSample inputs = _
    unfold State.increment Capture.firstSample
    rw [h.capture]
    dsimp only
    split <;> rfl

theorem State.SetupClear.not_onLine (h : s.SetupClear) : ¬s.mode.onLine = true := by
  rw [h.mode]; exact nofun

theorem State.SetupClear.not_active (h : s.SetupClear) : ¬s.mode = .active := by
  rw [h.mode]; exact nofun

theorem State.onLine_of_atFrameEnd (h : s.atFrameEnd = true) : s.mode.onLine = true := by
  simp only [State.atFrameEnd, Bool.and_eq_true] at h
  exact h.1.1.1

theorem State.flight_of_atFrameEnd (h : s.atFrameEnd = true) : s.line.flight = none := by
  simp only [State.atFrameEnd, Bool.and_eq_true, Option.isNone_iff_eq_none] at h
  exact h.1.2

theorem State.maySend_iff :
    s.maySend = true ↔ s.mode.working = true ∧ s.line.lineState = .idle ∧ s.line.transmitter = .ready := by
  simp [State.maySend, and_assoc]

/-- What a command does in a clear SETUP state leaves it clear, or starts a session. -/
theorem State.SetupClear.work (h : s.SetupClear) (hwork : Work s u) : u.BlocksRight := by
  have hclear : ∀ {t : State}, t.SetupClear → t.BlocksRight := fun ht => ht.blocksRight
  cases hwork with
  | reset | endSession => exact hclear ⟨rfl, rfl, rfl, rfl, rfl, rfl, rfl, rfl, rfl, rfl, rfl⟩
  | startSession => exact h.startSession
  | nothing => exact hclear h
  | restartIdleTimer id => rw [State.restartIdleTimer, if_pos h.mode]; exact hclear h
  | readEntries id max hentries => rw [h.stream] at hentries; exact absurd rfl hentries
  | readSlot n x hslot => rw [h.latches_eq_none] at hslot; cases hslot
  | readUrgent n rest hnotes => rw [h.notes_eq_nil] at hnotes; cases hnotes
  | clearMarks => rw [clearMarks_initial h.roster]; exact hclear h
  | port | writeSetup =>
    exact hclear ⟨h.clock, h.capture, h.roster, h.outbound, h.sequencer, h.urgent, h.journal, h.line, h.counters,
      h.lossAdvanced, h.clockChanged⟩
  | clearClockChanged =>
    exact hclear ⟨h.clock, h.capture, h.roster, h.outbound, h.sequencer, h.urgent, h.journal, h.line, h.counters,
      h.lossAdvanced, rfl⟩
  | clearLossAdvanced =>
    exact hclear ⟨h.clock, h.capture, h.roster, h.outbound, h.sequencer, h.urgent, h.journal, h.line, h.counters,
      rfl, h.clockChanged⟩
  | clearCounters =>
    exact hclear ⟨h.clock, h.capture, h.roster, h.outbound, h.sequencer, h.urgent, h.journal, h.line, rfl,
      h.lossAdvanced, h.clockChanged⟩
  | unmute =>
    have hline : s.line.unmute = s.line := Line.unmute_of_ne_mute (by rw [h.line]; exact nofun)
    rw [hline]
    exact hclear h
  | submit _ _ _ _ hmode | startLeaving hmode | confirmCapture _ _ hmode | startEdge _ _ hmode =>
    exact absurd hmode h.not_active
  | endOwnFrame _ hend | endUnreadFrame hend | endMalformedFrame _ hend | duplicateNumber hend
  | takeGoodFrame _ _ _ hend => exact absurd (State.onLine_of_atFrameEnd hend) h.not_onLine
  | passOpportunity hmode | countRotation hmode | openFrame _ _ hmode | takeRelease _ hmode | takePoint _ hmode
  | peerLeaves _ hmode | fallSilent _ hmode | beaconExpiry hmode | takeDeadline _ hmode =>
    exact absurd hmode h.not_onLine
  | startFrame _ _ hmay => exact absurd (Mode.onLine_of_working _ (State.maySend_iff.1 hmay).1) h.not_onLine
  | completeFrame f hflight | failAttempt _ f hflight => rw [h.line] at hflight; cases hflight
  | increment inputs level => exact hclear (h.increment inputs level)
  | idleExpiry id expiry htimer => rw [h.stream] at htimer; cases htimer
  | setInput i level =>
    refine hclear ⟨h.clock, ?_, h.roster, h.outbound, h.sequencer, h.urgent, h.journal, h.line, h.counters,
      h.lossAdvanced, h.clockChanged⟩
    unfold State.setInput
    rw [h.capture]
  | cancelEdge i level p hpending =>
    exact absurd (h.blocksRight.pendingEdges i (by rw [hpending]; nofun)) h.not_active

end

end Sys2Proof.Machine
end

section
/-! PROOFS. The agreement of the blocks through the work of a command, the state after a full reset, and the entry to
ACTIVE (R21, R64, R130). -/

namespace Sys2Proof.Machine

/-! ### What the operations of line access leave of the mode and the frame in flight -/

section
variable (n : Line)

theorem Line.countFrameEnd_keeps : n.countFrameEnd.mode = n.mode ∧ n.countFrameEnd.flight = n.flight :=
  have h := (countFrameEnd_counts n).rest
  ⟨(congrArg Line.mode h :), (congrArg Line.flight h :)⟩

@[simp] theorem Line.mode_endFrame (reference : Option Station) : (n.endFrame reference).mode = n.mode :=
  n.countFrameEnd_keeps.1

@[simp] theorem Line.flight_endFrame (reference : Option Station) : (n.endFrame reference).flight = n.flight :=
  n.countFrameEnd_keeps.2

@[simp] theorem Line.mode_hearGood : n.hearGood.mode = n.mode := by
  unfold Line.hearGood; dsimp only; split <;> rfl

@[simp] theorem Line.flight_hearGood : n.hearGood.flight = n.flight := by
  unfold Line.hearGood; dsimp only; split <;> rfl

@[simp] theorem Line.mode_unmute : n.unmute.mode = n.mode := by
  unfold Line.unmute; split <;> rfl

@[simp] theorem Line.mode_failAttempt (bit : Nat) : (n.failAttempt bit).mode = n.mode := by
  unfold Line.failAttempt Line.failTransmitter; split <;> split <;> rfl

@[simp] theorem Line.flight_failAttempt (bit : Nat) : (n.failAttempt bit).flight = none := by
  unfold Line.failAttempt; dsimp only; split <;> rfl

variable (s : State)

theorem State.mode_countRotation : s.countRotation.mode = s.mode := by
  unfold State.countRotation; dsimp only
  split
  · split <;> rfl
  · rfl

theorem State.mode_endMalformedFrame (sender : Station) : (s.endMalformedFrame sender).mode = s.mode :=
  Line.mode_endFrame s.line (some sender)

theorem State.mode_endGoodFrame (sender : Station) : (s.endGoodFrame sender).mode = s.mode :=
  (Line.mode_hearGood _).trans (Line.mode_endFrame s.line _)

theorem State.flight_endGoodFrame (sender : Station) : (s.endGoodFrame sender).line.flight = s.line.flight :=
  (Line.flight_hearGood _).trans (Line.flight_endFrame s.line _)

theorem State.mode_increment (inputs : BitVec 16) (level : Bool) : (s.settle.increment inputs level).mode = s.mode :=
  (passMicrosecond_sameAccess s.settle.line s.settle.setup.bitTime s.settle.fallStamp s.settle.l
    s.settle.receiveData level).mode.trans (settle_onlyJournal s).mode

end

section
variable {s t u : State}

/-! ### The mode and the setup values -/

@[simp] theorem State.mode_setThrough (s : State) (t : Time) : (s.setThrough t).mode = s.mode := rfl

theorem State.mode_tryActive_ne_setup (h : s.mode ≠ .setup) : s.tryActive.mode ≠ .setup := by
  obtain ⟨-, -, -, heq⟩ | heq := s.tryActive_cases
  · rw [heq]; exact nofun
  · rw [heq]; exact h

/-- What a command can do to the mode and the setup values: keep both, enter ACTIVE, leave a clear SETUP state, write
setup values or start a session in SETUP, or go on to LEAVING or STOPPED. -/
theorem Work.mode_cases (h : Work s u) :
    u.mode = s.mode ∧ u.setup = s.setup ∨
    (∃ v : State, u = v.tryActive ∧ v.mode = s.mode ∧ v.setup = s.setup) ∨
    u.SetupClear ∨
    s.mode = .setup ∧ u.mode ≠ .active ∨
    (u.mode = .leaving ∨ u.mode = .stopped) ∧ u.setup = s.setup := by
  cases h with
  | reset host inReset => exact .inr (.inr (.inl (setupClear_reset host inReset)))
  | endSession => exact .inr (.inr (.inl setupClear_endSession))
  | writeSetup c hmode => exact .inr (.inr (.inr (.inl ⟨hmode, by show s.mode ≠ _; rw [hmode]; nofun⟩)))
  | startSession hmode =>
    exact .inr (.inr (.inr (.inl ⟨hmode, by rw [(startSession_onlyJournal s).mode]; exact nofun⟩)))
  | startLeaving => exact .inr (.inr (.inr (.inr ⟨.inl rfl, rfl⟩)))
  | duplicateNumber => exact .inr (.inr (.inr (.inr ⟨.inr rfl, rfl⟩)))
  | endMalformedFrame sender hend =>
    exact .inr (.inl ⟨_, rfl, State.mode_endMalformedFrame s sender, rfl⟩)
  | countRotation => exact .inr (.inl ⟨_, rfl, State.mode_countRotation s, rfl⟩)
  | takePoint => exact .inr (.inl ⟨_, rfl, rfl, rfl⟩)
  | takeGoodFrame f stamp stampL =>
    have honly := handOn_onlyTaking (s.endGoodFrame f.sender) f stamp stampL
    exact .inr (.inl ⟨_, rfl, honly.mode.trans (State.mode_endGoodFrame s _), honly.setup.trans rfl⟩)
  | endOwnFrame surplus => cases surplus <;> exact .inl ⟨Line.mode_endFrame s.line (some s.own), rfl⟩
  | endUnreadFrame => exact .inl ⟨Line.mode_endFrame s.line none, rfl⟩
  | failAttempt bit => exact .inl ⟨Line.mode_failAttempt s.line bit, rfl⟩
  | unmute => exact .inl ⟨Line.mode_unmute s.line, rfl⟩
  | completeFrame f => rw [completeFrame_eq]; exact .inl ⟨rfl, rfl⟩
  | increment inputs level =>
    exact .inl ⟨State.mode_increment s inputs level, (settle_onlyJournal s).setup⟩
  | restartIdleTimer id => exact .inl ⟨(restartIdleTimer_onlyJournal s id).mode, (restartIdleTimer_onlyJournal s id).setup⟩
  | readEntries id max =>
    obtain ⟨data, honly⟩ := readEntries_onlyJournal s id max
    exact .inl ⟨honly.mode, honly.setup⟩
  | submit =>
    exact .inl ⟨(createOwn_onlyCapturing s _ _ _ _ _).mode, (createOwn_onlyCapturing s _ _ _ _ _).setup⟩
  | peerLeaves i => exact .inl ⟨(peerLeaves_onlyTaking s i).mode, (peerLeaves_onlyTaking s i).setup⟩
  | confirmCapture i p => exact .inl ⟨(confirmCapture_onlyCapturing s i p).mode, (confirmCapture_onlyCapturing s i p).setup⟩
  | startEdge i level => exact .inl ⟨(startEdge_onlyCapturing s i level).mode, (startEdge_onlyCapturing s i level).setup⟩
  | takeDeadline g => exact .inl ⟨(takeDeadline_onlyRecovery s g).mode, (takeDeadline_onlyRecovery s g).setup⟩
  | _ => exact .inl ⟨rfl, rfl⟩

/-- Outside SETUP a command keeps the setup values, or ends in a clear SETUP state. -/
theorem Work.setup_of_ne_setup (h : Work s u) (hmode : s.mode ≠ .setup) : u.SetupClear ∨ u.mode ≠ .setup ∧ u.setup = s.setup := by
  obtain ⟨hm, hsetup⟩ | ⟨v, rfl, hm, hsetup⟩ | hclear | ⟨hm, -⟩ | ⟨hm, hsetup⟩ := h.mode_cases
  · exact .inr ⟨hm ▸ hmode, hsetup⟩
  · exact .inr ⟨State.mode_tryActive_ne_setup (hm ▸ hmode), (State.setup_tryActive v).trans hsetup⟩
  · exact .inl hclear
  · exact absurd hm hmode
  · refine .inr ⟨fun heq => ?_, hsetup⟩
    rw [heq] at hm
    exact hm.elim nofun nofun

/-! ### The entry to ACTIVE -/

/-- R21, R64, R130: a command that answers ACTIVE from another mode has entered it from LISTENING with both marks set. -/
theorem Work.active_entered (h : Work s u) (hmode : s.mode ≠ .active) (hactive : u.mode = .active) :
    s.mode = .listening ∧ u.clock.firstPoint = true ∧ u.line.observed = true ∧ u.setup = s.setup ∧
      (u.entry s.own).state = .live ∧ (u.entry s.own).incarnation = s.setup.incarnation ∧
      (u.entry s.own).lastHeard = u.st := by
  obtain ⟨hm, -⟩ | ⟨v, rfl, hm, hsetup⟩ | hclear | ⟨-, hm⟩ | ⟨hm, -⟩ := h.mode_cases
  · exact absurd (hm ▸ hactive) hmode
  · obtain ⟨hlisten, hpoint, hobserved, heq⟩ | heq := v.tryActive_cases
    · have hown : s.own = v.own := (congrArg Setup.station hsetup).symm
      have hentry : v.tryActive.entry s.own =
          { v.entry v.own with state := .live, incarnation := v.setup.incarnation, lastHeard := v.st } := by
        rw [heq, hown]
        exact State.entry_setEntry_self _ _ _
      rw [hentry, heq]
      exact ⟨hm ▸ hlisten, hpoint, hobserved, hsetup, rfl, congrArg Setup.incarnation hsetup, rfl⟩
    · rw [heq] at hactive
      exact absurd (hm ▸ hactive) hmode
  · rw [hclear.mode] at hactive; cases hactive
  · exact absurd hactive hm
  · rw [hactive] at hm; exact hm.elim nofun nofun

theorem Finish.setup (h : Finish u t) : t.setup = u.setup := by
  cases h with
  | settled => exact (settle_onlyJournal u).setup
  | _ => rfl

theorem Finish.roster (h : Finish u t) : t.roster = u.roster := by
  cases h with
  | settled => exact (settle_onlyJournal u).roster
  | _ => rfl

theorem Finish.entry (h : Finish u t) (i : Station) : t.entry i = u.entry i := congrArg (·[i.val]) h.roster

theorem State.tryActive_of_listening (hmode : s.mode = .listening) (hpoint : s.clock.firstPoint = true)
    (hobserved : s.line.observed = true) :
    s.tryActive = (({ s with line := { s.line with mode := .active } } : State).setThrough s.st).ownEntryLive :=
  if_pos ⟨hmode, hpoint, hobserved⟩

theorem State.tryActive_of_not
    (h : s.mode ≠ .listening ∨ s.clock.firstPoint = false ∨ s.line.observed = false) : s.tryActive = s := by
  refine if_neg fun ⟨hmode, hpoint, hobserved⟩ => ?_
  obtain hm | hp | ho := h
  · exact hm hmode
  · rw [hp] at hpoint; cases hpoint
  · rw [ho] at hobserved; cases hobserved

end

/-- Settles O27: `tryActive` is the one way into ACTIVE, by the inversion of `exec`. -/
theorem entryToActive : Obligations.EntryToActive := by
  intro s
  refine ⟨State.tryActive_of_listening, State.tryActive_of_not, fun c t hmode hexec hactive => ?_⟩
  obtain ⟨u, hwork, hfinish⟩ := exec_cases hexec
  have hst : t.st = u.st := congrArg Clock.st hfinish.clock
  rw [hfinish.clock, hfinish.line, hfinish.setup, hfinish.entry, hst]
  exact hwork.active_entered hmode (hfinish.mode ▸ hactive)

/-! ### Each part of the invariant outside SETUP -/

section
variable {s t u : State}

theorem State.TablesAgree.ofCapturing (h : s.TablesAgree) (honly : OnlyCapturing s t) : t.TablesAgree :=
  h.ofEq honly.setup honly.roster fun i => congrArg (fun q : Sequencer => (q.table[i.val]).map (·.incarnation)) honly.sequencer

theorem State.TablesAgree.ofJournal (h : s.TablesAgree) (honly : OnlyJournal s t) : t.TablesAgree :=
  h.ofEq honly.setup honly.roster honly.followed

theorem State.TablesAgree.fallSilent (h : s.TablesAgree) {i : Station} (hi : i ≠ s.own)
    (hlive : (s.entry i).state = .live) : (s.fallSilent i).TablesAgree := by
  unfold State.fallSilent
  refine h.update hi rfl (fun j hj => (State.entry_setEntry s _ j _).trans (if_neg hj)) (fun _ _ => rfl) ?_
  rw [State.entry_setEntry_self, if_neg nofun]
  refine ((tablesAgree_iff s).1 h i).trans (if_neg ?_)
  rw [hlive]
  exact not_or.2 ⟨hi, nofun⟩

theorem State.entry_clearMarks (s : State) (i : Station) : s.clearMarks.entry i = { s.entry i with mark := false } :=
  Vector.getElem_map _ i.isLt

theorem Work.tablesAgree (h : Work s u) (hmode : s.mode ≠ .setup) (hs : s.TablesAgree) : u.TablesAgree := by
  cases h with
  | reset host inReset => exact (setupClear_reset host inReset).blocksRight.tables
  | endSession => exact setupClear_endSession.blocksRight.tables
  | writeSetup _ hm | startSession hm => exact absurd hm hmode
  | clearMarks =>
    exact hs.congr rfl (fun i _ => by rw [State.entry_clearMarks]) (fun i _ => by rw [State.entry_clearMarks])
      fun _ => rfl
  | restartIdleTimer id => exact hs.ofJournal (restartIdleTimer_onlyJournal s id)
  | readEntries id max =>
    obtain ⟨data, honly⟩ := readEntries_onlyJournal s id max
    exact hs.ofEq honly.setup honly.roster honly.followed
  | submit => exact hs.ofCapturing (createOwn_onlyCapturing s _ _ _ _ _)
  | confirmCapture i p => exact hs.ofCapturing (confirmCapture_onlyCapturing s i p)
  | startEdge i level => exact hs.ofCapturing (startEdge_onlyCapturing s i level)
  | endOwnFrame surplus => cases surplus <;> exact hs.ofEq rfl rfl fun _ => rfl
  | endMalformedFrame | countRotation | takePoint =>
    exact State.TablesAgree.tryActive (hs.ofEq rfl rfl fun _ => rfl)
  | duplicateNumber => exact hs.ownEntry rfl rfl fun _ => rfl
  | takeGoodFrame f stamp stampL hend hpeer =>
    have hended : (s.endGoodFrame f.sender).TablesAgree := hs.ofEq rfl rfl fun _ => rfl
    exact (hended.handOn hpeer stamp stampL).tryActive
  | completeFrame f => rw [completeFrame_eq]; exact hs.ownEntry rfl rfl fun _ => rfl
  | increment =>
    have honly := settle_onlyJournal s
    exact hs.ofEq honly.setup honly.roster honly.followed
  | peerLeaves i _ hpeer => exact hs.peerLeaves hpeer
  | fallSilent i _ hpeer hlive => exact hs.fallSilent hpeer hlive
  | takeDeadline g =>
    have honly := takeDeadline_onlyRecovery s g
    exact hs.ofEq honly.setup honly.roster (takeDeadline_followed s g)
  | _ => exact hs.ofEq rfl rfl fun _ => rfl

theorem entry_own_setEntry_of_ne (s : State) {i : Station} (hi : i ≠ s.own) (e : RosterEntry) :
    (s.setEntry i e).entry s.own = s.entry s.own :=
  (State.entry_setEntry s i _ e).trans (if_neg hi.symm)

/-- In the modes that keep the own entry, a command whose work keeps the mode keeps it right. -/
theorem Work.ownEntryRight (h : Work s u) (hmode : s.mode ≠ .setup) (hs : s.OwnEntryRight) : u.OwnEntryRight := by
  cases h with
  | reset host inReset => exact (setupClear_reset host inReset).blocksRight.ownEntry
  | endSession => exact setupClear_endSession.blocksRight.ownEntry
  | writeSetup _ hm | startSession hm => exact absurd hm hmode
  | clearMarks => exact hs.congr rfl rfl (by rw [State.entry_clearMarks])
  | restartIdleTimer id =>
    have honly := restartIdleTimer_onlyJournal s id
    exact hs.ofEq honly.setup honly.roster honly.mode
  | readEntries id max =>
    obtain ⟨data, honly⟩ := readEntries_onlyJournal s id max
    exact hs.ofEq honly.setup honly.roster honly.mode
  | submit =>
    have honly := createOwn_onlyCapturing s
    exact hs.ofEq (honly _ _ _ _ _).setup (honly _ _ _ _ _).roster (honly _ _ _ _ _).mode
  | confirmCapture i p =>
    have honly := confirmCapture_onlyCapturing s i p
    exact hs.ofEq honly.setup honly.roster honly.mode
  | startEdge i level =>
    have honly := startEdge_onlyCapturing s i level
    exact hs.ofEq honly.setup honly.roster honly.mode
  | startLeaving hactive => exact hs.congr rfl (by rw [hactive]; rfl) rfl
  | endOwnFrame surplus => cases surplus <;> exact hs.ofEq rfl rfl (Line.mode_endFrame s.line (some s.own))
  | endUnreadFrame => exact hs.ofEq rfl rfl (Line.mode_endFrame s.line none)
  | endMalformedFrame sender =>
    exact State.OwnEntryRight.tryActive (hs.ofEq rfl rfl (State.mode_endMalformedFrame s sender))
  | countRotation =>
    exact State.OwnEntryRight.tryActive (hs.ofEq rfl rfl (State.mode_countRotation s))
  | takePoint => exact State.OwnEntryRight.tryActive (hs.ofEq rfl rfl rfl)
  | duplicateNumber =>
    unfold State.OwnEntryRight
    exact congrArg RosterEntry.state (State.entry_setEntry_self _ _ _)
  | takeGoodFrame f stamp stampL hend hpeer =>
    have hright : (s.endGoodFrame f.sender).OwnEntryRight :=
      hs.ofEq rfl rfl (State.mode_endGoodFrame s f.sender)
    exact (hright.handOn hpeer stamp stampL).tryActive
  | completeFrame f =>
    rw [completeFrame_eq]
    exact hs.congr rfl rfl (congrArg RosterEntry.state
      (State.entry_setEntry_self s s.own { s.entry s.own with lastHeard := f.frame.sendStamp }) :)
  | peerLeaves i _ hpeer =>
    have honly := peerLeaves_onlyTaking s i
    exact hs.congr honly.own (congrArg Mode.working honly.mode) (by rw [entry_peerLeaves, if_neg hpeer.symm])
  | fallSilent i _ hpeer => exact hs.congr rfl rfl (by rw [State.fallSilent, entry_own_setEntry_of_ne s hpeer])
  | increment inputs level =>
    have honly := settle_onlyJournal s
    exact hs.ofEq honly.setup honly.roster (State.mode_increment s inputs level)
  | takeDeadline g =>
    have honly := takeDeadline_onlyRecovery s g
    exact hs.ofEq honly.setup honly.roster honly.mode
  | unmute => exact hs.ofEq rfl rfl (Line.mode_unmute s.line)
  | failAttempt bit => exact hs.ofEq rfl rfl (Line.mode_failAttempt s.line bit)
  | _ => exact hs.ofEq rfl rfl rfl

end

end Sys2Proof.Machine
end

section
/-! PROOFS. The invariant of the blocks in every step, and both invariants after a full reset. -/

namespace Sys2Proof.Machine

section
variable {s t u : State}

/-! ### A frame in flight -/

/-- With the transmitter READY an empty rotation is counted and nothing else. -/
theorem State.countRotation_of_ready (h : s.line.transmitter = .ready) :
    s.countRotation = { s.line with rotations := s.line.rotations + 1 } :=
  if_neg (by show ¬s.line.transmitter = .backoff; rw [h]; exact nofun)

theorem State.flight_countRotation (s : State) : s.countRotation.flight = s.line.flight := by
  unfold State.countRotation; dsimp only
  split
  · split <;> rfl
  · rfl

theorem State.FlightRight.countRotation (h : s.FlightRight) :
    ({ s with line := s.countRotation } : State).observe.FlightRight := by
  intro f hf
  have hflight : s.line.flight = some f := (State.flight_countRotation s).symm.trans hf
  obtain ⟨hwork, hline, hready⟩ := h f hflight
  have heq := State.countRotation_of_ready hready
  refine ⟨?_, ?_, ?_⟩
  · rw [show ({ s with line := s.countRotation } : State).observe.mode = s.mode from State.mode_countRotation s]
    exact hwork
  · show s.countRotation.lineState = _
    rw [heq]; exact hline
  · show s.countRotation.transmitter = _
    rw [heq]; exact hready

theorem State.FlightRight.unmute (h : s.FlightRight) : ({ s with line := s.line.unmute } : State).FlightRight := by
  by_cases hmute : s.line.transmitter = .mute
  · refine flightRight_of_none ?_
    rw [Line.unmute_of_mute hmute]
    by_contra hflight
    obtain ⟨f, hf⟩ := Option.ne_none_iff_exists'.1 hflight
    obtain ⟨-, -, hready⟩ := h f hf
    rw [hready] at hmute
    cases hmute
  · rw [Line.unmute_of_ne_mute hmute]; exact h

theorem State.FlightRight.increment (h : s.FlightRight) (inputs : BitVec 16) (level : Bool) :
    (s.settle.increment inputs level).FlightRight := by
  have honly := settle_onlyJournal s
  have hpass := passMicrosecond_sameAccess s.settle.line s.settle.setup.bitTime s.settle.fallStamp s.settle.l
    s.settle.receiveData level
  refine h.congr (fun hne => ?_) (fun hwork => by rw [State.mode_increment]; exact hwork)
    (hpass.lineState.trans (congrArg Line.lineState honly.line))
    (hpass.transmitter.trans (congrArg Line.transmitter honly.line))
  rw [← honly.line]
  intro hnone
  refine hne ((flight_passMicrosecond _ _ _ _ _ _).trans ?_)
  rw [hnone]
  split <;> rfl

theorem State.FlightRight.flight_eq_none (h : s.FlightRight) (hmode : ¬s.mode.working = true) :
    s.line.flight = none := by
  by_contra hflight
  obtain ⟨f, hf⟩ := Option.ne_none_iff_exists'.1 hflight
  exact hmode (h f hf).1

theorem Work.flightRight (h : Work s u) (hs : s.FlightRight) : u.FlightRight := by
  cases h with
  | reset | endSession => exact flightRight_of_none rfl
  | completeFrame f => rw [completeFrame_eq]; exact flightRight_of_none rfl
  | failAttempt bit => exact flightRight_of_none (Line.flight_failAttempt s.line bit)
  | startSession hmode =>
    have hnone := hs.flight_eq_none (by rw [hmode]; exact nofun)
    exact flightRight_of_none ((congrArg Line.flight (startSession_onlyJournal s).line).trans hnone)
  | unmute => exact hs.unmute
  | startLeaving => exact hs.congr id (fun _ => rfl) rfl rfl
  | endOwnFrame surplus hend =>
    have hnone := State.flight_of_atFrameEnd hend
    cases surplus <;> exact flightRight_of_none ((Line.flight_endFrame s.line (some s.own)).trans hnone)
  | endUnreadFrame hend =>
    exact flightRight_of_none ((Line.flight_endFrame s.line none).trans (State.flight_of_atFrameEnd hend))
  | endMalformedFrame sender hend =>
    have hnone : (s.endMalformedFrame sender).line.flight = none :=
      (Line.flight_endFrame s.line (some sender)).trans (State.flight_of_atFrameEnd hend)
    exact (flightRight_of_none hnone).tryActive
  | duplicateNumber hend =>
    exact flightRight_of_none ((State.flight_endGoodFrame s s.own).trans (State.flight_of_atFrameEnd hend))
  | takeGoodFrame f stamp stampL hend =>
    have hline := (handOn_onlyTaking (s.endGoodFrame f.sender) f stamp stampL).line
    have hnone := (State.flight_endGoodFrame s f.sender).trans (State.flight_of_atFrameEnd hend)
    exact (flightRight_of_none ((congrArg Line.flight hline).trans hnone)).tryActive
  | startFrame body covered hmay =>
    obtain ⟨hwork, -, hready⟩ := State.maySend_iff.1 hmay
    exact fun _ _ => ⟨hwork, rfl, hready⟩
  | countRotation => exact hs.countRotation.tryActive
  | openFrame p f _ hidle =>
    refine flightRight_of_none ?_
    by_contra hflight
    obtain ⟨g, hg⟩ := Option.ne_none_iff_exists'.1 hflight
    obtain ⟨-, hline, -⟩ := hs g hg
    rw [hidle] at hline
    cases hline
  | passOpportunity | takeRelease => exact hs.congr id id rfl rfl
  | takePoint => exact State.FlightRight.tryActive (hs.ofLine rfl)
  | increment inputs level => exact hs.increment inputs level
  | restartIdleTimer id => exact hs.ofLine (restartIdleTimer_onlyJournal s id).line
  | readEntries id max => exact hs.ofLine (readEntries_onlyJournal s id max).choose_spec.line
  | submit => exact hs.ofLine (createOwn_onlyCapturing s _ _ _ _ _).line
  | peerLeaves i => exact hs.ofLine (peerLeaves_onlyTaking s i).line
  | confirmCapture i p => exact hs.ofLine (confirmCapture_onlyCapturing s i p).line
  | startEdge i level => exact hs.ofLine (startEdge_onlyCapturing s i level).line
  | takeDeadline g => exact hs.ofLine (takeDeadline_onlyRecovery s g).line
  | _ => exact hs.ofLine rfl

/-! ### Pending states -/

theorem Capture.pendingEdges_firstSample (c : Capture) (inputs : BitVec 16) :
    (c.firstSample inputs).pendingEdges = c.pendingEdges := by
  unfold Capture.firstSample; split <;> rfl

theorem State.PendingRight.ofEq (h : s.PendingRight) (hcapture : t.capture = s.capture) (hmode : t.mode = s.mode) :
    t.PendingRight :=
  h.congr (congrArg Capture.pendingEdges hcapture) fun hactive => hmode.trans hactive

theorem Work.pendingRight (h : Work s u) (hmode : s.mode ≠ .setup) (hs : s.PendingRight) : u.PendingRight := by
  cases h with
  | reset host inReset => exact (setupClear_reset host inReset).blocksRight.pendingEdges
  | endSession => exact setupClear_endSession.blocksRight.pendingEdges
  | writeSetup _ hm | startSession hm => exact absurd hm hmode
  | submit _ _ _ _ hactive =>
    exact pendingRight_of_active ((createOwn_onlyCapturing s _ _ _ _ _).mode.trans hactive)
  | confirmCapture i p hactive =>
    exact pendingRight_of_active ((confirmCapture_onlyCapturing s i p).mode.trans hactive)
  | startEdge i level hactive =>
    exact pendingRight_of_active ((startEdge_onlyCapturing s i level).mode.trans hactive)
  | cancelEdge i level p hpending =>
    have hactive := hs i (by rw [hpending]; nofun)
    exact pendingRight_of_active (s := State.setPendingEdge _ _ _) hactive
  | startLeaving | duplicateNumber => exact pendingRight_of_cleared rfl
  | setInput => exact hs.congr rfl id
  | endOwnFrame surplus => cases surplus <;> exact hs.ofEq rfl (Line.mode_endFrame s.line (some s.own))
  | endUnreadFrame => exact hs.ofEq rfl (Line.mode_endFrame s.line none)
  | endMalformedFrame sender =>
    exact State.PendingRight.tryActive (hs.ofEq rfl (State.mode_endMalformedFrame s sender))
  | countRotation => exact State.PendingRight.tryActive (hs.ofEq rfl (State.mode_countRotation s))
  | takePoint => exact State.PendingRight.tryActive (hs.ofEq rfl rfl)
  | takeGoodFrame f stamp stampL =>
    have honly := handOn_onlyTaking (s.endGoodFrame f.sender) f stamp stampL
    exact State.PendingRight.tryActive
      (hs.ofEq honly.capture (honly.mode.trans (State.mode_endGoodFrame s f.sender)))
  | completeFrame f => rw [completeFrame_eq]; exact hs.ofEq rfl rfl
  | failAttempt bit => exact hs.ofEq rfl (Line.mode_failAttempt s.line bit)
  | unmute => exact hs.ofEq rfl (Line.mode_unmute s.line)
  | increment inputs level =>
    refine hs.congr ((Capture.pendingEdges_firstSample _ _).trans
      (congrArg Capture.pendingEdges (settle_onlyJournal s).capture)) fun hactive => ?_
    rw [State.mode_increment]; exact hactive
  | restartIdleTimer id =>
    exact hs.ofEq (restartIdleTimer_onlyJournal s id).capture (restartIdleTimer_onlyJournal s id).mode
  | readEntries id max =>
    obtain ⟨data, honly⟩ := readEntries_onlyJournal s id max
    exact hs.ofEq honly.capture honly.mode
  | peerLeaves i => exact hs.ofEq (peerLeaves_onlyTaking s i).capture (peerLeaves_onlyTaking s i).mode
  | takeDeadline g => exact hs.ofEq (takeDeadline_onlyRecovery s g).capture (takeDeadline_onlyRecovery s g).mode
  | _ => exact hs.ofEq rfl rfl

/-! ### The slew debt -/

theorem Work.debtBounded (h : Work s u) (hsetup : u.setup = s.setup) (hs : s.DebtBounded) : u.DebtBounded := by
  unfold State.DebtBounded at *
  rw [hsetup]
  obtain ⟨next, hclock⟩ | ⟨-, hdebt⟩ | hclock | ⟨p, -, hclock⟩ := h.clock_cases
  · rw [hclock]; exact hs
  · rw [hdebt]; exact Nat.zero_le _
  · rw [hclock]; exact s.clock.debt_increment_le.trans hs
  · rw [hclock]; exact State.debt_clockAfterPoint_le hs p

/-! ### The whole invariant -/

/-- In SETUP the state is clear, and what a command makes of it is one lemma; outside SETUP each part is kept. -/
theorem Work.blocksRight (h : Work s u) (hs : s.BlocksRight) : u.BlocksRight := by
  by_cases hmode : s.mode = .setup
  · exact (hs.clear hmode).work h
  · obtain hclear | ⟨hstill, hsetup⟩ := h.setup_of_ne_setup hmode
    · exact hclear.blocksRight
    · exact ⟨h.tablesAgree hmode hs.tables, h.ownEntryRight hmode hs.ownEntry, h.flightRight hs.flight,
        h.pendingRight hmode hs.pendingEdges, h.debtBounded hsetup hs.debt, fun hm => absurd hm hstill⟩

/-- The invariant reads neither the journal outside SETUP, nor the queue, the reply or the levels at the pins. -/
theorem State.BlocksRight.congr (h : s.BlocksRight) (hsetup : t.setup = s.setup) (hline : t.line = s.line)
    (hclock : t.clock = s.clock) (hroster : t.roster = s.roster) (hcapture : t.capture = s.capture)
    (hsequencer : t.sequencer = s.sequencer) (hclear : s.SetupClear → t.SetupClear) : t.BlocksRight := by
  have hmode : t.mode = s.mode := congrArg Line.mode hline
  refine ⟨h.tables.ofEq hsetup hroster fun i => ?_, h.ownEntry.ofEq hsetup hroster hmode, h.flight.ofLine hline,
    h.pendingEdges.ofEq hcapture hmode, ?_, fun hm => hclear (h.clear (hmode ▸ hm))⟩
  · exact congrArg (fun q : Sequencer => (q.table[i.val]).map (·.incarnation)) hsequencer
  · have hdebt := h.debt
    unfold State.DebtBounded at *
    rw [hclock, hsetup]
    exact hdebt

theorem Finish.blocksRight (h : Finish u t) (hu : u.BlocksRight) : t.BlocksRight := by
  cases h with
  | plain => exact hu
  | answered => exact hu.congr rfl rfl rfl rfl rfl rfl fun hc => ⟨hc.1, hc.2, hc.3, hc.4, hc.5, hc.6, hc.7, hc.8, hc.9, hc.10, hc.11⟩
  | settled =>
    have honly := settle_onlyJournal u
    refine hu.congr honly.setup honly.line honly.clock honly.roster honly.capture honly.sequencer fun hclear => ?_
    rw [settle_of_not_working u (by rw [hclear.mode]; rfl)]
    exact hclear

end

/-- Settles O59: in SETUP the clear state decides everything, and outside SETUP the work of a command keeps each part of
the invariant. -/
theorem blocksStayRight : Obligations.BlocksStayRight := by
  intro s t hs hstep
  obtain rfl | ⟨c, rest, hexec⟩ := step_cases hstep
  · exact hs
  · obtain ⟨u, hwork, hfinish⟩ := exec_cases hexec
    have hqueue : ({ s with pending := rest } : State).BlocksRight :=
      hs.congr rfl rfl rfl rfl rfl rfl fun hc => ⟨hc.1, hc.2, hc.3, hc.4, hc.5, hc.6, hc.7, hc.8, hc.9, hc.10, hc.11⟩
    exact hfinish.blocksRight (hwork.blocksRight hqueue)

/-! ### After a full reset -/

/-- A clear SETUP state meets the invariant of the stores too. -/
theorem State.SetupClear.storesRight {s : State} (h : s.SetupClear) : s.StoresRight :=
  (storesRight_iff s).2
    ⟨h.line ▸ Line.right_initial, h.outbound ▸ Outbound.right_initial,
      recoveryRight_initial (congrArg Sequencer.gaps h.sequencer) h.urgent h.journal⟩

theorem setupClear_initial : State.reset.SetupClear := ⟨rfl, rfl, rfl, rfl, rfl, rfl, rfl, rfl, rfl, rfl, rfl⟩

/-- Settles O60: a full reset leaves a clear SETUP state, which meets both invariants. -/
theorem resetMeetsInvariants : Obligations.ResetMeetsInvariants := by
  refine ⟨setupClear_initial.storesRight, setupClear_initial.blocksRight, fun rst s => ?_⟩
  have hclear : ∀ host inReset, ∃ t, Host.Outcome.next { s.fullReset with host := host, inReset := inReset } =
      (.next t : Next) ∧ t.StoresRight ∧ t.BlocksRight := fun host inReset =>
    ⟨_, rfl, (setupClear_reset host inReset).storesRight, (setupClear_reset host inReset).blocksRight⟩
  cases rst with
  | held => exact hclear _ true
  | released cs => exact hclear _ false

end Sys2Proof.Machine
end

section
/-! PROOFS. The host port: how the commands are taken in a transaction and what they answer, and the commands of Tables
10-1 and 10-3. -/

namespace Sys2Proof.Machine

variable {s t : State}

/-! ### Taking a command (R165 to R167) -/

theorem State.take_of_not_opened (f : State → State) (h : s.host.stage ≠ .opened) : s.take f = s := if_neg h

/-- Every host command is something done in a transaction that has taken no command yet. -/
theorem exec_eq_take {c : Instr} (h : isHostCommand c = true) :
    ∃ f : State → State, ∀ s, exec c s = .next (s.take f) := by
  cases c with
  | badCommand b =>
    by_cases hb : (parameterCount b).isSome
    · exact ⟨id, fun s => by simp [exec, execBadCommand, hb, State.take]⟩
    · exact ⟨_, fun s => congrArg Host.Outcome.next (if_neg hb)⟩
  | readStream _ _ | readLatch _ | readUrgent | readRoster _ | readChanges | readClock | readCounters _
  | clearCounters | setupWrite _ _ _ | setupRead _ _ | commit | submit _ _ _ _ | unmute | leave | restart =>
    exact ⟨_, fun s => rfl⟩
  | _ => cases h

theorem exec_of_not_opened {c : Instr} (hc : isHostCommand c = true) (h : s.host.stage ≠ .opened) :
    exec c s = .next s := by
  obtain ⟨f, hf⟩ := exec_eq_take hc
  rw [hf, State.take_of_not_opened f h]

theorem exec_transactionStart_of_not_idle (h : s.host.stage ≠ .idle) : exec .transactionStart s = .next s := if_neg h

theorem exec_transactionStart_of_inReset (hidle : s.host.stage = .idle) (hreset : s.inReset = true) :
    exec .transactionStart s = .next { s with host := { s.host with stage := .ignored } } :=
  (if_pos hidle).trans (if_pos hreset)

theorem State.dataOutput_of_idle (h : s.host.stage = .idle) (bit : Nat) : s.dataOutput bit = none := by
  simp only [State.dataOutput, h]

/-- R165: until a command is taken, the latched status byte goes out and then zeros. -/
theorem State.dataOutput_of_opened (h : s.host.stage = .opened) (bit : Nat) :
    s.dataOutput bit = some (decide (bit < 8) && s.host.status.getLsbD (7 - bit)) := by
  simp only [State.dataOutput, h, serialBit]
  by_cases hbit : bit < 8
  · simp [hbit, Nat.mod_eq_of_lt hbit]
  · simp [hbit]

/-- Settles O3: a case for each stage the port may stand in. -/
theorem transactionFraming : Obligations.TransactionFraming := by
  intro s
  exact ⟨exec_transactionStart_of_idle, exec_transactionStart_of_not_idle, exec_transactionStart_of_inReset, rfl,
    State.dataOutput_of_idle, State.dataOutput_of_idle rfl, State.dataOutput_of_opened rfl,
    fun _ hc hstage => exec_of_not_opened hc hstage⟩

/-! ### What a command answers -/

/-- `t` is `s` with a reply prepared, whose result is neither NOT-NOW nor BAD-COMMAND. -/
def Replies (s t : State) : Prop :=
  ∃ (r : Result) (data : List Byte), t.host = ⟨.replied, s.host.status, reply r data⟩ ∧ r ≠ .notNow ∧ r ≠ .badCommand

theorem Replies.answer {u : State} {r : Result} (data : List Byte) (h : u.host = s.host) (hnow : r ≠ .notNow)
    (hbad : r ≠ .badCommand) : Replies s (u.answer r data) := by
  refine ⟨r, data, ?_, hnow, hbad⟩
  rw [State.answer, h]

theorem Replies.onlyJournal {u : State} (h : Replies s u) (k : OnlyJournal u t) : Replies s t := by
  unfold Replies
  rwa [k.host]

theorem readEntries_replies (id : StreamId) (max : Nat) : Replies s (s.readEntries id max) := by
  unfold State.readEntries
  refine Replies.onlyJournal ?_ (releaseReady_onlyJournal _)
  exact .answer _ (restartIdleTimer_onlyJournal (s.setStream _ _) _).host nofun nofun

theorem readStream_replies (stream max : Byte) : Replies s (s.readStream stream max) := by
  unfold State.readStream
  split
  · exact .answer _ rfl nofun nofun
  split
  · exact .answer _ rfl nofun nofun
  split
  · exact .answer _ (restartIdleTimer_onlyJournal s _).host nofun nofun
  · exact readEntries_replies _ _

theorem readLatch_replies (slot : Byte) : Replies s (s.readLatch slot) := by
  unfold State.readLatch State.readSlot
  split
  · split <;> exact .answer _ rfl nofun nofun
  · exact .answer _ rfl nofun nofun

theorem readUrgent_replies : Replies s s.readUrgent := by
  unfold State.readUrgent
  split <;> exact .answer _ rfl nofun nofun

theorem readRoster_replies (station : Byte) : Replies s (s.readRoster station) := by
  unfold State.readRoster
  split <;> exact .answer _ rfl nofun nofun

theorem readCounters_replies (group : Byte) : Replies s (s.readCounters group) := by
  unfold State.readCounters
  split
  · exact .answer _ rfl nofun nofun
  · split <;> exact .answer _ rfl nofun nofun

theorem setupWrite_replies (item index : Byte) (v : BitVec 32) : Replies s (s.setupWrite item index v) := by
  unfold State.setupWrite
  split
  · exact .answer _ rfl nofun nofun
  · split <;> exact .answer _ rfl nofun nofun

theorem setupRead_replies (item index : Byte) : Replies s (s.setupRead item index) := by
  unfold State.setupRead
  split <;> exact .answer _ rfl nofun nofun

theorem host_startSession : s.startSession.host = s.host :=
  ((restartIdleTimer_onlyJournal _ .a).trans (restartIdleTimer_onlyJournal _ .b)).host

theorem commit_replies : Replies s s.commit := by
  unfold State.commit
  split
  · exact .answer _ rfl nofun nofun
  · exact .answer _ host_startSession nofun nofun

theorem submit_replies (channel code flags : Byte) (v : BitVec 16) :
    Replies s (s.submit channel code flags v) := by
  unfold State.submit
  split
  · split
    · exact .answer _ rfl nofun nofun
    · exact .answer _ (accept_onlyJournalPath _ _).host nofun nofun
  · exact .answer _ rfl nofun nofun

/-! ### Table 10-1 -/

theorem State.inMode_of_eq {m : Mode} (h : s.mode = m) (f : State → State) : s.inMode (s.mode == m) f = f s :=
  if_pos (by simpa using h)

/-- R169: outside the one mode that answers it, a command is answered NOT-NOW. -/
theorem exec_of_ne_onlyMode {c : Instr} {m : Mode} (hopen : s.host.stage = .opened) (hc : onlyMode c = some m)
    (hmode : s.mode ≠ m) : exec c s = .next (s.answer .notNow []) := by
  cases c with
  | setupWrite _ _ _ | setupRead _ _ | commit | submit _ _ _ _ | leave =>
    cases hc
    exact congrArg Host.Outcome.next (State.take_inMode_of_ne hopen hmode _)
  | _ => cases hc

/-- In an open transaction, and in a mode of Table 10-1 that answers it, a command of Table 1-11 is answered with a
result of its own. -/
theorem exec_replies {c : Instr} (hc : isHostCommand c = true) (hlisted : ∀ b, c ≠ .badCommand b)
    (hopen : s.host.stage = .opened) (hmode : ∀ m, onlyMode c = some m → s.mode = m) :
    ∃ t, exec c s = .next t ∧ Replies s t := by
  have taken {f : State → State} (h : Replies s (f s)) : ∃ t, .next (s.take f) = (.next t : Next) ∧ Replies s t :=
    ⟨f s, congrArg _ (State.take_of_opened f hopen), h⟩
  have inMode {m : Mode} {f : State → State} (hm : s.mode = m) (h : Replies s (f s)) :
      Replies s (s.inMode (s.mode == m) f) := by rwa [State.inMode_of_eq hm]
  cases c with
  | readStream stream max => exact taken (readStream_replies stream max)
  | readLatch slot => exact taken (readLatch_replies slot)
  | readUrgent => exact taken readUrgent_replies
  | readRoster station => exact taken (readRoster_replies station)
  | readChanges | readClock | clearCounters | unmute | restart => exact taken (.answer _ rfl nofun nofun)
  | readCounters group => exact taken (readCounters_replies group)
  | setupWrite item index v => exact taken (inMode (hmode _ rfl) (setupWrite_replies item index v))
  | setupRead item index => exact taken (inMode (hmode _ rfl) (setupRead_replies item index))
  | commit => exact taken (inMode (hmode _ rfl) commit_replies)
  | submit channel code flags v => exact taken (inMode (hmode _ rfl) (submit_replies channel code flags v))
  | leave => exact taken (inMode (hmode _ rfl) (.answer _ rfl nofun nofun))
  | badCommand b => exact absurd rfl (hlisted b)
  | _ => cases hc

theorem exec_badCommand_of_unlisted {b : Byte} (hopen : s.host.stage = .opened) (hb : parameterCount b = none) :
    exec (.badCommand b) s = .next (s.answer .badCommand []) := by
  show execBadCommand b s = _
  rw [execBadCommand, hb, State.take_of_opened _ hopen]
  rfl

theorem Result.code_eq_one {r : Result} (h : r.code = 1) : r = .notNow := by
  cases r with
  | notNow => rfl
  | _ => exact absurd h (by decide)

theorem Result.code_eq_five {r : Result} (h : r.code = 5) : r = .badCommand := by
  cases r with
  | badCommand => rfl
  | _ => exact absurd h (by decide)

/-- Settles O20: outside the table's mode the answer is NOT-NOW, and within it every work of a command replies with another
result. -/
theorem modeTableDecidesNotNow : Obligations.ModeTableDecidesNotNow := by
  intro c s hc hwell hopen
  refine ⟨fun m hm hne => exec_of_ne_onlyMode hopen hm hne, fun hm => ?_⟩
  by_cases hlisted : ∃ b, c = .badCommand b
  · obtain ⟨b, rfl⟩ := hlisted
    have hunlisted : parameterCount b = none := Option.isNone_iff_eq_none.1 hwell
    exact ⟨_, _, exec_badCommand_of_unlisted hopen hunlisted, rfl, rfl, by decide, rfl⟩
  · have hmode : ∀ m, onlyMode c = some m → s.mode = m := by
      rintro m hone
      obtain hnone | hsome := hm
      · cases hone.symm.trans hnone
      · exact Option.some.inj (hsome.symm.trans hone)
    obtain ⟨t, ht, r, data, hhost, hnow, -⟩ := exec_replies hc (not_exists.1 hlisted) hopen hmode
    exact ⟨t, r.code, ht, by rw [hhost], by rw [hhost]; rfl, fun h => hnow (Result.code_eq_one h), by rw [hhost]⟩

/-! ### Attention (R175, R176) -/

theorem State.streamCause_iff (id : StreamId) :
    s.streamCause id = true ↔
      (s.setup.stream id).threshold.toNat ≤ (s.stream id).entries.length ∨ (s.stream id).timeout = true := by
  simp [State.streamCause]

theorem State.rosterCause_iff : s.rosterCause = true ↔ ∃ i : Station, (s.entry i).mark = true := by
  simp only [State.rosterCause, List.any_eq_true, Vector.mem_toList_iff, Vector.mem_iff_getElem]
  constructor
  · rintro ⟨_, ⟨i, hi, rfl⟩, hmark⟩
    exact ⟨⟨i, hi⟩, hmark⟩
  · rintro ⟨i, hmark⟩
    exact ⟨_, ⟨i.val, i.isLt, rfl⟩, hmark⟩

theorem State.attn_iff :
    s.attn = true ↔
      ∃ n, 1 ≤ n ∧ n ≤ 7 ∧ s.causePending n = true ∧ s.setup.attentionMask.getLsbD (n - 1) = true := by
  have hcodes : s.attn = (List.range' 1 7).any s.causeEnabled := rfl
  simp only [hcodes, List.any_eq_true, List.mem_range'_1, s.causeEnabled_iff]
  constructor
  · rintro ⟨n, ⟨hlow, hhigh⟩, hn⟩
    exact ⟨n, hlow, by omega, hn⟩
  · rintro ⟨n, hlow, hhigh, hn⟩
    exact ⟨n, ⟨hlow, by omega⟩, hn⟩

/-- Settles O5: cause by cause. -/
theorem causesAndAttn : Obligations.CausesAndAttn := by
  intro s
  refine ⟨s.fault_iff, ?_, s.streamCause_iff .a, s.streamCause_iff .b, Iff.rfl, s.rosterCause_iff, Iff.rfl, s.attn_iff,
    fun h => congrArg (!·) h, fun h => congrArg (!·) h⟩
  show (!s.urgent.notes.isEmpty) = true ↔ _
  simp

/-! ### COMMIT (R174) -/

/-- Table 10-3: rule `r` of the setup values is a RANGE rule with A above B. -/
def Setup.badRule (c : Setup) (r : Fin 48) : Bool :=
  c.rules[r.val].kind == .range && decide (c.rules[r.val].b < c.rules[r.val].a)

theorem Setup.badRule_iff {c : Setup} {r : Fin 48} :
    c.badRule r = true ↔ c.rules[r.val].kind = .range ∧ c.rules[r.val].b < c.rules[r.val].a := by
  simp [Setup.badRule]

theorem Setup.commitFailure_rules {c : Setup} (h8 : 2 * c.beaconInterval ≤ c.silenceTimeout)
    (h9 : c.silenceTimeout < c.expelTimeout) (h10 : c.beaconInterval ≤ c.agreementPeriod) :
    c.commitFailure = ((List.finRange 48).find? c.badRule).map fun r => 64 + r.val := by
  rw [Setup.commitFailure, if_neg (by omega), if_neg (by omega), if_neg (by omega)]
  rfl

/-- The first of all 48 rules that fails the check. -/
theorem find_badRule {c : Setup} {r : Fin 48} (hr : c.badRule r = true) (hfirst : ∀ q, q < r → c.badRule q ≠ true) :
    (List.finRange 48).find? c.badRule = some r := by
  rw [List.find?_eq_some_iff_getElem]
  refine ⟨hr, r.val, by simp, by simp, fun j hj => ?_⟩
  simpa using hfirst ⟨j, by omega⟩ hj

theorem exec_commit_of_setup (hopen : s.host.stage = .opened) (hmode : s.mode = .setup) :
    exec .commit s = .next s.commit :=
  congrArg Host.Outcome.next (State.take_inMode_of_eq hopen hmode _)

theorem State.commit_of_failure {n : Nat} (h : s.setup.commitFailure = some n) :
    s.commit = s.answer .invalid [BitVec.ofNat 8 n] := by
  simp only [State.commit, h]

theorem State.commit_of_right (h : s.setup.commitFailure = none) : s.commit = s.startSession.answer .ok [] := by
  simp only [State.commit, h]

/-- R20, R44, R85, R156: outside SETUP, where a session begins, the idle timers run. -/
theorem State.startSession_eq :
    s.startSession =
      { s with
        line := { s.line with mode := .listening, idle := 0, stopLeft := 0, rotations := 0, opportunityFloor := 0 }
        clock := { s.clock with nextPoint := some (s.l + millis s.setup.agreementPeriod) }
        outbound :=
          { s.outbound with beaconTimer := some (s.l + millis s.setup.beaconInterval), beaconDue := false }
        journal :=
          { s.journal with
            streamA := { s.journal.streamA with idleTimer := some (s.l + millis s.setup.streamA.idleTimeout) }
            streamB := { s.journal.streamB with idleTimer := some (s.l + millis s.setup.streamB.idleTimeout) } } } :=
  rfl

/-- Settles O16: the checks in the order of Table 10-3, then the start of the session. -/
theorem commitChecksThenStarts : Obligations.CommitChecksThenStarts := by
  intro s hopen hmode
  rw [exec_commit_of_setup hopen hmode]
  refine ⟨fun h8 => ?_, fun h8 h9 => ?_, fun h8 h9 h10 => ?_, fun h8 h9 h10 => ⟨fun r hr hfirst => ?_, fun hnone => ?_⟩⟩
  · exact congrArg _ (State.commit_of_failure (if_pos h8))
  · exact congrArg _ (State.commit_of_failure ((if_neg (by omega)).trans (if_pos h9)))
  · exact congrArg _ (State.commit_of_failure ((if_neg (by omega)).trans ((if_neg (by omega)).trans (if_pos h10))))
  · have hfind := find_badRule (Setup.badRule_iff.2 hr) fun q hq hbad => hfirst q hq (Setup.badRule_iff.1 hbad)
    rw [State.commit_of_failure (n := 64 + r.val)]
    rw [Setup.commitFailure_rules h8 h9 h10, hfind]
    rfl
  · have hfind : (List.finRange 48).find? s.setup.badRule = none :=
      List.find?_eq_none.2 fun r _ hbad => hnone r (Setup.badRule_iff.1 hbad)
    rw [State.commit_of_right, State.startSession_eq]
    rw [Setup.commitFailure_rules h8 h9 h10, hfind]
    rfl

/-! ### SUBMIT and LEAVE (R76, R22) -/

theorem State.submit_of_full {ch code flags : Byte} {v : BitVec 16} (hlow : 16 ≤ ch.toNat) (hhigh : ch.toNat < 32)
    (hfull : outqCapacity ≤ s.outbound.outq.length) : s.submit ch code flags v = s.answer .full [] := by
  rw [State.submit, dif_pos ⟨hlow, hhigh⟩, if_pos (State.outqFull_iff.2 hfull)]

theorem State.submit_of_channel {ch code flags : Byte} {v : BitVec 16} {channel : Channel}
    (hchannel : channel.val = ch.toNat) (hlow : 16 ≤ ch.toNat) (hroom : s.outbound.outq.length < outqCapacity) :
    s.submit ch code flags v =
      (s.createOwn channel code s.st (!s.clockAgreed) (if flags.getLsbD 0 then some v else none)).answer .ok
        (leBytes 2 s.outbound.nextSeq.toNat) := by
  have hhigh : ch.toNat < 32 := hchannel ▸ channel.isLt
  have heq : channel = ⟨ch.toNat, hhigh⟩ := Fin.ext hchannel
  rw [State.submit, dif_pos ⟨hlow, hhigh⟩, if_neg (by simpa [State.outqFull_iff] using hroom), heq]

theorem exec_submit_of_active {ch code flags : Byte} {v : BitVec 16} (hopen : s.host.stage = .opened)
    (hmode : s.mode = .active) : exec (.submit ch code flags v) s = .next (s.submit ch code flags v) :=
  congrArg Host.Outcome.next (State.take_inMode_of_eq hopen hmode _)

theorem State.clockAgreed_eq : s.clockAgreed = decide (s.clock.state = .agreed) := by
  rw [State.clockAgreed, beq_eq_decide]

theorem State.not_clockAgreed : (!s.clockAgreed) = decide (s.clock.state ≠ .agreed) := by
  rw [State.clockAgreed_eq, decide_not]

/-- Settles O17: the refusals in order, and the own record of `createOwn_eq`. -/
theorem submitCreatesRecord : Obligations.SubmitCreatesRecord := by
  intro s ch code flags v hopen
  refine ⟨fun hmode => exec_of_ne_onlyMode hopen rfl hmode, fun hmode hout => ?_, fun hmode hlow hhigh hfull => ?_,
    fun channel hchannel hmode hlow hroom => ⟨_, _, _, rfl, rfl, rfl, accept_onlyJournalPath _ _, ?_⟩⟩
  · rw [exec_submit_of_active hopen hmode, State.submit, dif_neg (by omega)]
  · rw [exec_submit_of_active hopen hmode, State.submit_of_full hlow (by omega) hfull]
  · rw [exec_submit_of_active hopen hmode, State.submit_of_channel hchannel hlow hroom, State.not_clockAgreed]
    rfl

/-- R84: with no pending state the local horizon is ST. -/
theorem State.localHorizon_of_no_pending (h : s.capture.pendingEdges = Vector.replicate 16 none) :
    s.localHorizon = s.st := by
  rw [State.localHorizon, State.pendingTimes, h]
  simp [earliestOf, isEarliestOf]

/-- Settles O19: the next state of LEAVE written out. -/
theorem leaveStartsLeaving : Obligations.LeaveStartsLeaving := by
  intro s hopen
  refine ⟨fun hmode => exec_of_ne_onlyMode hopen rfl hmode, fun hmode => ⟨_, ?_, rfl, rfl, ?_⟩⟩
  · exact congrArg Host.Outcome.next (State.take_inMode_of_eq hopen hmode _)
  · exact State.localHorizon_of_no_pending rfl

end Sys2Proof.Machine
end

section
/-! PROOFS. Full resets and the ends of a session, and the read of a stream. -/

namespace Sys2Proof.Machine

variable {s t u : State}

/-! ### Outputs of a part that holds nothing of a session -/

theorem State.SetupClear.causePending (h : s.SetupClear) (n : Nat) : s.causePending n = false := by
  have hstream (id : StreamId) : s.streamCause id = false := by
    have hthreshold : 1 ≤ (s.setup.stream id).threshold.toNat := by cases (s.setup.stream id).threshold <;> decide
    simpa [State.streamCause, h.stream id, JournalStream.initial] using Nat.pos_iff_ne_zero.1 hthreshold
  unfold State.causePending
  split
  · simp [State.fault, h.mode, h.line, Line.initial]
  · simp [h.urgent, Urgent.initial]
  · exact hstream .a
  · exact hstream .b
  · exact h.lossAdvanced
  · refine Bool.eq_false_iff.2 fun hcause => ?_
    obtain ⟨i, hmark⟩ := State.rosterCause_iff.1 hcause
    rw [h.entry i] at hmark
    cases hmark
  · exact h.clockChanged
  · rfl

theorem State.SetupClear.attn (h : s.SetupClear) : s.attn = false := by
  rw [Bool.eq_false_iff, ne_eq, State.attn_iff]
  rintro ⟨n, -, -, hcause, -⟩
  exact Bool.false_ne_true ((h.causePending n).symm.trans hcause)

theorem State.SetupClear.attnLevel (h : s.SetupClear) : s.attnLevel = true := by
  rw [State.attnLevel, h.attn]
  rfl

theorem State.SetupClear.driverEnable (h : s.SetupClear) : s.driverEnable = false := by
  rw [State.driverEnable, h.line]
  rfl

theorem State.SetupClear.transmitData (h : s.SetupClear) : s.transmitData = true := by
  simp only [State.transmitData, h.line, Line.initial]

/-! ### Full resets (R185, R186) -/

theorem get_fullReset {item index : Byte} {it : SetupItem} (h : addressedItem item index = some it) :
    s.fullReset.setup.get it index.toNat = tableDefault item.toNat := by
  obtain ⟨hnumber, hindex⟩ := addressedItem_eq_some_iff.1 h
  exact hnumber ▸ Setup.get_initial hindex

/-- R185: while RST is held the part takes neither a command nor an event, and L stands still. -/
theorem exec_of_held {c : Instr} (hreset : ∀ r, c ≠ .fullReset r) (hstart : c ≠ .transactionStart)
    (hend : c ≠ .transactionEnd) (hclear : u.SetupClear) (hsampled : u.capture.sampled = false)
    (hheld : u.inReset = true) (hstage : u.host.stage ≠ .opened) : exec c u = .next u := by
  have hline : u.mode.onLine = false := by rw [hclear.mode]; rfl
  have hwork : u.mode.working = false := by rw [hclear.mode]; rfl
  by_cases hhost : isHostCommand c = true
  · exact exec_of_not_opened hhost hstage
  cases c with
  | fullReset r => exact absurd rfl (hreset r)
  | transactionStart => exact absurd rfl hstart
  | transactionEnd => exact absurd rfl hend
  | frameEnd bytes framingError => simp [exec, execFrameEnd, State.atFrameEnd, hline]
  | opportunity => simp [exec, execOpportunity, State.atOpportunity, hline]
  | completion => simp [exec, execCompletion, hclear.line, Line.initial]
  | failedAttempt bit => simp [exec, execFailedAttempt, hclear.line, Line.initial]
  | emptyRotation => simp [exec, execEmptyRotation, hline]
  | leaveTimerExpiry => simp [exec, execLeaveTimerExpiry, hclear.line, Line.initial]
  | agreementPoint =>
    have hpoint : u.clock.nextPoint = none := by rw [hclear.clock]; rfl
    simp [exec, execAgreementPoint, hpoint]
  | silenceTimerExpiry i => simp [exec, execSilenceTimerExpiry, hline]
  | expelTimerExpiry i => simp [exec, execExpelTimerExpiry, hline]
  | edge i level => simp [exec, execEdge, hsampled]
  | debounceExpiry i =>
    have hpending : u.pendingEdge i = none := by simp [State.pendingEdge, hclear.pendingEdges]
    simp [exec, execDebounceExpiry, hpending]
  | beaconTimerExpiry => simp [exec, execBeaconTimerExpiry, hclear.outbound, Outbound.initial]
  | gapDeadline i first => simp [exec, execGapDeadline, hclear.sequencer, Sequencer.initial]
  | orderedRelease => exact congrArg _ (settle_of_not_working u hwork)
  | idleTimerExpiry id => simp [exec, execIdleTimerExpiry, hclear.stream, JournalStream.initial]
  | frameStart => simp [exec, execFrameStart, hclear.line, Line.initial, Receiver.initial]
  | localCountIncrement inputs level => exact if_pos hheld
  | lineReleaseAfterFramingError => simp [exec, execLineRelease, hclear.line, Line.initial, Receiver.initial]
  | _ => exact absurd rfl hhost

/-- R185: the state of a full reset, whatever the transaction and RST, block by block. -/
theorem fullReset_blocks (s : State) (host : HostPort) (inReset : Bool) (t : State)
    (ht : t = { s.fullReset with host := host, inReset := inReset }) :
    (∀ i : Station, t.entry i = ⟨.absent, 0, 0, 0, none, false⟩ ∧ t.seqEntry i = none) ∧
      (∀ i : InputNo, t.pendingEdge i = none) ∧ (∀ id : StreamId, t.stream id = ⟨[], 0, false, none⟩) ∧
      (∀ n : SlotNo, t.journal.latches[n.val] = none) ∧ (∀ c : Counter, t.counters.get c = 0) ∧
      t.attn = false ∧ t.attnLevel = true ∧ t.driverEnable = false ∧ t.transmitData = true := by
  have hclear : t.SetupClear := ht ▸ setupClear_reset host inReset
  refine ⟨fun i => ⟨hclear.entry i, hclear.seqEntry i⟩, fun i => ?_, hclear.stream, hclear.latches_eq_none, fun c => ?_,
    hclear.attn, hclear.attnLevel, hclear.driverEnable, hclear.transmitData⟩
  · simp [State.pendingEdge, hclear.pendingEdges]
  · rw [hclear.counters, Counters.get_initial]

/-- Settles O6: the state of a full reset is `setupClear_reset`, and with RST held `exec_of_held`. -/
theorem fullResetState : Obligations.FullResetState := by
  intro s
  constructor
  · intro cs
    obtain ⟨hentries, hpending, hstreams, hlatches, hcounters, hattn, hlevel, hdriver, hdata⟩ :=
      fullReset_blocks s { HostPort.initial with stage := stageAfterReset cs } false _ rfl
    exact ⟨_, rfl, rfl, rfl, rfl, by cases cs <;> rfl, fun item index it hit => get_fullReset (s := s) hit,
      ⟨rfl, rfl, rfl, rfl, rfl, rfl, rfl, rfl, rfl, rfl, rfl, rfl⟩,
      ⟨rfl, rfl, rfl, rfl, rfl, rfl, rfl, rfl, rfl, rfl, rfl, rfl⟩, hentries, rfl, hpending, rfl, rfl, rfl, rfl, rfl, rfl,
      rfl, hstreams, hlatches, hcounters, rfl, rfl, hattn, hlevel, hdriver, hdata⟩
  · obtain ⟨-, -, -, -, -, hattn, hlevel, hdriver, hdata⟩ :=
      fullReset_blocks s { HostPort.initial with stage := stageAfterReset s.chipSelect } true _ rfl
    have hchip : stageAfterReset s.chipSelect = if s.host.stage = .idle then .idle else .ignored := by
      by_cases h : s.host.stage = .idle <;> simp [stageAfterReset, State.chipSelect, h]
    refine ⟨_, rfl, rfl, ?_, rfl, rfl, hattn, hlevel, hdriver, hdata, fun hidle => ?_, ?_⟩
    · rw [← hchip]
      rfl
    · exact State.dataOutput_of_idle (hchip.trans (if_pos hidle))
    · rintro u ⟨stage, rfl, hstage⟩
      refine ⟨?_, rfl, fun c hreset hstart hend => exec_of_held hreset hstart hend (setupClear_reset _ true) rfl rfl ?_⟩
      · obtain rfl | rfl := hstage <;> rfl
      · obtain rfl | rfl := hstage <;> nofun

/-! ### The end of a session (R184, R23) -/

theorem endSession_completeFrame (f : Flight) : (s.completeFrame f).endSession = s.endSession := by
  rw [completeFrame_eq]
  rfl

theorem exec_completion_of_over {f : Flight} (hflight : s.line.flight = some f) (hmismatch : f.mismatch = none)
    (hover : 10 * f.frame.toBytes.length * s.setup.bitTime ≤ (s.l - f.startL).toNat) :
    exec .completion s =
      .next (if f.frame.body.isLeaving then (s.completeFrame f).endSession else s.completeFrame f) := by
  have hdone : f.mismatch = none ∧ s.flightOver f = true := ⟨hmismatch, decide_eq_true hover⟩
  simp only [exec, execCompletion, hflight, if_pos hdone]
  split <;> rfl

theorem exec_leaveTimerExpiry_of_reached {e : Time} (htimer : s.line.leaveTimer = some e) (hmode : s.mode = .leaving)
    (hreached : (s.l - e).toNat < 2 ^ 47) : exec .leaveTimerExpiry s = .next s.endSession := by
  simp only [exec, execLeaveTimerExpiry, htimer, if_pos (And.intro hmode ((reached_iff _ _).2 hreached))]

/-- Settles O7: each of the three events ends in `State.endSession`. -/
theorem sessionEnds : Obligations.SessionEnds := by
  intro s
  have hclear : (s.endSession.answer .ok []).SetupClear := ⟨rfl, rfl, rfl, rfl, rfl, rfl, rfl, rfl, rfl, rfl, rfl⟩
  refine ⟨fun hopen => ⟨_, congrArg Host.Outcome.next (State.take_of_opened _ hopen), rfl, hclear.attn,
    hclear.attnLevel, hclear.driverEnable, hclear.transmitData⟩, fun f wm next hflight hbody hmismatch hover => ?_,
    fun e htimer hmode hreached => exec_leaveTimerExpiry_of_reached htimer hmode hreached, rfl⟩
  rw [exec_completion_of_over hflight hmismatch hover, hbody, endSession_completeFrame]
  rfl

/-! ### READ-STREAM (R153, R154) -/

/-- R156: the restart written out; in SETUP the timer stays as it is. -/
theorem State.restartIdleTimer_eq (s : State) (id : StreamId) :
    s.restartIdleTimer id =
      { s with
        journal := s.journal.setStream id
          { s.stream id with
            idleTimer :=
              if s.mode = Mode.setup then (s.stream id).idleTimer
              else some (s.l + millis (s.setup.stream id).idleTimeout) } } := by
  unfold State.restartIdleTimer
  split
  · exact congrArg (fun j => { s with journal := j }) (s.journal.setStream_stream id).symm
  · rfl

/-- `t`'s streams are `s`'s with entries appended behind. -/
def Appends (s t : State) : Prop :=
  ∀ id, (∃ more, (t.stream id).entries = (s.stream id).entries ++ more) ∧ (t.stream id).timeout = (s.stream id).timeout

theorem Appends.of_eq
    (h : ∀ id, (t.stream id).entries = (s.stream id).entries ∧ (t.stream id).timeout = (s.stream id).timeout) :
    Appends s t := fun id => ⟨⟨[], by rw [(h id).1, List.append_nil]⟩, (h id).2⟩

theorem Appends.refl (s : State) : Appends s s := .of_eq fun _ => ⟨rfl, rfl⟩

theorem Appends.trans (h : Appends s t) (k : Appends t u) : Appends s u := by
  intro id
  obtain ⟨⟨more, hmore⟩, htime⟩ := h id
  obtain ⟨⟨rest, hrest⟩, ktime⟩ := k id
  exact ⟨⟨more ++ rest, by rw [hrest, hmore, List.append_assoc]⟩, ktime.trans htime⟩

theorem Appends.setStream {id : StreamId} {x : JournalStream}
    (hentries : ∃ more, x.entries = (s.stream id).entries ++ more) (htimeout : x.timeout = (s.stream id).timeout) :
    Appends s (s.setStream id x) := by
  intro k
  rw [State.stream_setStream]
  split
  · next h => subst h; exact ⟨hentries, htimeout⟩
  · exact Appends.refl s k

theorem restartIdleTimer_appends (id : StreamId) : Appends s (s.restartIdleTimer id) := by
  unfold State.restartIdleTimer
  split
  · exact .refl s
  · exact .setStream ⟨[], (List.append_nil _).symm⟩ rfl

theorem writeTo_appends (id : StreamId) (item : Item) (late forced : Bool) :
    Appends s (s.writeTo id item late forced) := by
  unfold State.writeTo
  split
  · exact (Appends.setStream (x := { s.stream id with dropped := saturate8 (s.stream id).dropped })
      ⟨[], (List.append_nil _).symm⟩ rfl).trans (.of_eq fun _ => ⟨rfl, rfl⟩)
  · unfold State.appendTo
    refine Appends.trans ?_ (restartIdleTimer_appends id)
    exact .setStream ⟨_, rfl⟩ rfl

theorem deliver_appends (e : PoolEntry) (late forced : Bool) : Appends s (s.deliver e late forced) := by
  unfold State.deliver
  split
  · exact writeTo_appends _ _ _ _
  · exact (writeTo_appends _ _ _ _).trans (writeTo_appends _ _ _ _)
  · unfold State.latchTo
    split <;> exact .of_eq fun id => by cases id <;> exact ⟨rfl, rfl⟩

theorem releaseUpTo_appends (n : Nat) : ∀ s, Appends s (releaseUpTo n s) := by
  induction n with
  | zero => exact Appends.refl
  | succ n ih =>
    intro s
    unfold releaseUpTo
    split
    · exact .refl s
    · split
      · have hpool (rest : List PoolEntry) : Appends s (s.setPool rest) :=
          .of_eq fun id => by cases id <;> exact ⟨rfl, rfl⟩
        exact ((hpool _).trans (deliver_appends _ _ _)).trans (ih _)
      · exact .refl s

/-- R131: what release writes stands behind the entries held. -/
theorem releaseReady_appends (s : State) : Appends s s.releaseReady := by
  unfold State.releaseReady
  split
  · exact releaseUpTo_appends _ s
  · exact .refl s

theorem exec_readStream_of_opened (h : s.host.stage = .opened) (b max : Byte) :
    exec (.readStream b max) s = .next (s.readStream b max) :=
  congrArg Host.Outcome.next (State.take_of_opened _ h)

theorem State.readStream_of_range {b max : Byte} {id : StreamId} (hb : b = 0 ∧ id = .a ∨ b = 1 ∧ id = .b)
    (hlow : 1 ≤ max.toNat) (hhigh : max.toNat ≤ 64) :
    s.readStream b max =
      if (s.stream id).entries = [] then (s.restartIdleTimer id).answer .empty [] else s.readEntries id max.toNat := by
  have hmax : ¬(max.toNat < 1 ∨ 64 < max.toNat) := by omega
  obtain ⟨rfl, rfl⟩ | ⟨rfl, rfl⟩ := hb
  · exact (if_neg (by decide)).trans (if_neg hmax)
  · exact (if_neg (by decide)).trans (if_neg hmax)

/-- R153: the oldest entries go into the reply, the rest stays, and release resumes. -/
theorem State.readEntries_eq (s : State) (id : StreamId) (max : Nat) :
    s.readEntries id max =
      State.releaseReady
        { s with
          journal := s.journal.setStream id
            { s.stream id with
              entries := (s.stream id).entries.drop max
              timeout := false
              idleTimer :=
                if s.mode = Mode.setup then (s.stream id).idleTimer
                else some (s.l + millis (s.setup.stream id).idleTimeout) }
          host := ⟨.replied, s.host.status,
            0 :: BitVec.ofNat 8 (min max (s.stream id).entries.length) ::
              ((s.stream id).entries.take max).flatMap JournalEntry.toBytes⟩ } := by
  rw [State.readEntries, State.restartIdleTimer_eq, List.length_take]
  cases id <;> rfl

/-- Settles O8: the refusals in order, then the read of the oldest entries and the release that resumes. -/
theorem readStreamTakesOldest : Obligations.ReadStreamTakesOldest := by
  intro s hopen
  refine ⟨fun b max hb => ?_, fun b max hb hmax => ?_, fun b max id timer hb hlow hhigh htimer =>
    ⟨fun hempty => ?_, fun hheld => ?_⟩⟩
  · rw [exec_readStream_of_opened hopen, State.readStream, if_pos hb]
  · rw [exec_readStream_of_opened hopen, State.readStream, if_neg (by omega), if_pos (by omega)]
  · rw [exec_readStream_of_opened hopen, State.readStream_of_range hb hlow hhigh, if_pos hempty,
      State.restartIdleTimer_eq, htimer]
  · rw [exec_readStream_of_opened hopen, State.readStream_of_range hb hlow hhigh, if_neg hheld, State.readEntries_eq,
      ← htimer]
    refine ⟨_, _, rfl, rfl, rfl, releaseReady_onlyJournal _, ?_, ?_, fun hmode => releaseReady_of_not_working _ hmode⟩
    · obtain ⟨⟨more, hmore⟩, -⟩ := releaseReady_appends _ id
      exact ⟨more, hmore.trans (congrArg (JournalStream.entries · ++ more) (Journal.stream_setStream_self _ _ _))⟩
    · exact (releaseReady_appends _ id).2.trans (congrArg JournalStream.timeout (Journal.stream_setStream_self _ _ _))

end Sys2Proof.Machine
end

section
/-! PROOFS. Fields least significant byte first, and the bytes of a host command in a transaction. -/

namespace Sys2Proof.Machine

variable {s t u : State}

/-! ### Little-endian fields -/

@[simp] theorem length_leBytes (n v : Nat) : (leBytes n v).length = n := by
  induction n generalizing v with
  | zero => rfl
  | succ n ih => rw [leBytes, List.length_cons, ih]

/-- A field read back is the number modulo what the bytes can hold. -/
theorem takeField_leBytes (n v : Nat) (rest : List Byte) :
    takeField n (leBytes n v ++ rest) = some (v % 256 ^ n, rest) := by
  induction n generalizing v with
  | zero => simp [takeField, leBytes, Nat.mod_one]
  | succ n ih =>
    have hlow : (BitVec.ofNat 8 v).toNat = v % 256 := BitVec.toNat_ofNat _ _
    rw [leBytes, List.cons_append, takeField, ih]
    simp only [hlow, Nat.pow_succ']
    rw [Nat.mod_mul]

theorem takeField_time (t : Time) (rest : List Byte) :
    takeField 6 (leBytes 6 t.toNat ++ rest) = some (t.toNat, rest) := by
  exact (takeField_leBytes 6 _ rest).trans (by rw [Nat.mod_eq_of_lt (show t.toNat < 256 ^ 6 from t.isLt)])

theorem takeField_seq (q : BitVec 16) (rest : List Byte) :
    takeField 2 (leBytes 2 q.toNat ++ rest) = some (q.toNat, rest) := by
  exact (takeField_leBytes 2 _ rest).trans (by rw [Nat.mod_eq_of_lt (show q.toNat < 256 ^ 2 from q.isLt)])

/-- A field is there exactly when the bytes are; it is below what they can hold, and its bytes are those taken. -/
theorem takeField_of_le {n : Nat} {bs : List Byte} (h : n ≤ bs.length) :
    ∃ v, v < 256 ^ n ∧ takeField n bs = some (v, bs.drop n) := by
  induction n generalizing bs with
  | zero => exact ⟨0, Nat.one_pos, rfl⟩
  | succ n ih =>
    cases bs with
    | nil => cases h
    | cons b bs =>
      obtain ⟨v, hv, htake⟩ := ih (Nat.le_of_succ_le_succ h)
      have hb : b.toNat < 256 := b.isLt
      refine ⟨b.toNat + 256 * v, ?_, ?_⟩
      · rw [Nat.pow_succ']
        omega
      · rw [takeField, htake]
        rfl

theorem takeField_of_lt {n : Nat} {bs : List Byte} (h : bs.length < n) : takeField n bs = none := by
  induction n generalizing bs with
  | zero => cases h
  | succ n ih =>
    cases bs with
    | nil => rfl
    | cons b bs => rw [takeField, ih (Nat.lt_of_succ_lt_succ h)]

/-- The byte at offset `k` of a value of several bytes. -/
theorem extractByte_eq {w : Nat} (v : BitVec w) (k : Nat) :
    v.extractLsb' (8 * k) 8 = BitVec.ofNat 8 (v.toNat / 256 ^ k) := by
  show BitVec.ofNat 8 (v.toNat >>> (8 * k)) = _
  rw [Nat.shiftRight_eq_div_pow, Nat.pow_mul]

theorem append_bytes_word (v : BitVec 16) : v.extractLsb' 8 8 ++ v.extractLsb' 0 8 = v := by
  refine BitVec.eq_of_getLsbD_eq fun i hi => ?_
  simp only [BitVec.getLsbD_append, BitVec.getLsbD_extractLsb']
  grind

theorem append_bytes_value (v : BitVec 32) :
    v.extractLsb' 24 8 ++ v.extractLsb' 16 8 ++ v.extractLsb' 8 8 ++ v.extractLsb' 0 8 = v := by
  refine BitVec.eq_of_getLsbD_eq fun i hi => ?_
  simp only [BitVec.getLsbD_append, BitVec.getLsbD_extractLsb']
  grind

/-! ### The bytes of a command (Table 1-11) -/

/-- The bytes of a host command are a command byte and its parameters, and name the command; those of BAD_COMMAND are one
byte that the table does not list. -/
theorem hostBytes_eq {c : Instr} (hc : isHostCommand c = true) (hwell : WellFormed c) :
    ∃ (command : Byte) (parameters : List Byte), c.hostBytes = command :: parameters ∧
      (parameterCount command = some parameters.length ∧ namedCommand command parameters = some c ∨
        parameterCount command = none ∧ parameters = [] ∧ c = .badCommand command) := by
  cases c with
  | badCommand b => exact ⟨b, [], rfl, .inr ⟨Option.isNone_iff_eq_none.1 hwell, rfl, rfl⟩⟩
  | setupWrite item index v =>
    exact ⟨_, _, rfl, .inl ⟨rfl, congrArg (fun v => some (Instr.setupWrite item index v)) (append_bytes_value v)⟩⟩
  | submit ch code flags v =>
    exact ⟨_, _, rfl, .inl ⟨rfl, congrArg (fun v => some (Instr.submit ch code flags v)) (append_bytes_word v)⟩⟩
  | readStream _ _ | readLatch _ | readUrgent | readRoster _ | readChanges | readClock | readCounters _
  | clearCounters | setupRead _ _ | commit | unmute | leave | restart => exact ⟨_, _, rfl, .inl ⟨rfl, rfl⟩⟩
  | _ => cases hc

theorem hostCommand_of_listed {command : Byte} {parameters : List Byte} (more : List Byte)
    (h : parameterCount command = some parameters.length) :
    hostCommand (command :: parameters ++ more) = namedCommand command parameters := by
  simp [hostCommand, h]

theorem hostCommand_of_short {command : Byte} {parameters : List Byte} {n : Nat} (h : parameterCount command = some n)
    (hshort : parameters.length < n) : hostCommand (command :: parameters) = none := by
  simp [hostCommand, h, hshort]

theorem hostCommand_of_unlisted {command : Byte} (rest : List Byte) (h : parameterCount command = none) :
    hostCommand (command :: rest) = some (.badCommand command) := by
  simp [hostCommand, h]

theorem hostCommand_hostBytes {c : Instr} (hc : isHostCommand c = true) (hwell : WellFormed c) (more : List Byte) :
    hostCommand (c.hostBytes ++ more) = some c := by
  obtain ⟨command, parameters, hbytes, ⟨hcount, hnamed⟩ | ⟨hcount, rfl, rfl⟩⟩ := hostBytes_eq hc hwell
  · rw [hbytes, hostCommand_of_listed more hcount, hnamed]
  · exact hostCommand_of_unlisted more hcount

theorem hostCommand_take_hostBytes {c : Instr} (hc : isHostCommand c = true) (hwell : WellFormed c) {n : Nat}
    (hn : n < c.hostBytes.length) : hostCommand (c.hostBytes.take n) = none := by
  obtain ⟨command, parameters, hbytes, h⟩ := hostBytes_eq hc hwell
  rw [hbytes] at hn ⊢
  cases n with
  | zero => rfl
  | succ n =>
    have hlt : n < parameters.length := Nat.lt_of_succ_lt_succ hn
    obtain ⟨hcount, -⟩ | ⟨-, rfl, -⟩ := h
    · exact hostCommand_of_short hcount (by simpa using hlt)
    · cases hlt

/-- The port waits for as many bytes as the command has. -/
theorem hostBytes_length {c : Instr} (hc : isHostCommand c = true) (hwell : WellFormed c) :
    ∃ (command : Byte) (parameters : List Byte), c.hostBytes = command :: parameters ∧
      c.hostBytes.length = parametersAfter command + 1 := by
  obtain ⟨command, parameters, hbytes, ⟨hcount, -⟩ | ⟨hcount, rfl, -⟩⟩ := hostBytes_eq hc hwell
  all_goals exact ⟨command, _, hbytes, by simp [hbytes, parametersAfter, hcount]⟩

theorem parameterCount_of_unlisted {b : Byte}
    (h : b ∉ [(0x01 : Byte), 0x02, 0x03, 0x04, 0x05, 0x06, 0x07, 0x08, 0x10, 0x11, 0x12, 0x20, 0x21, 0x22, 0x23]) :
    parameterCount b = none := by
  simp only [List.mem_cons, List.not_mem_nil, or_false, not_or] at h
  simp only [parameterCount, List.mem_cons, List.not_mem_nil, h, or_self, if_false]

/-! ### What a transaction clocks out -/

/-- In an open transaction every host command is answered; only the unlisted byte is answered BAD-COMMAND. -/
theorem exec_answered {c : Instr} (hc : isHostCommand c = true) (hlisted : ∀ b, c ≠ .badCommand b)
    (hopen : s.host.stage = .opened) :
    ∃ t r data, exec c s = .next t ∧ t.host = ⟨.replied, s.host.status, reply r data⟩ ∧ r ≠ .badCommand := by
  by_cases hmode : ∀ m, onlyMode c = some m → s.mode = m
  · obtain ⟨t, ht, r, data, hhost, -, hbad⟩ := exec_replies hc hlisted hopen hmode
    exact ⟨t, r, data, ht, hhost, hbad⟩
  · simp only [not_forall] at hmode
    obtain ⟨m, hm, hne⟩ := hmode
    exact ⟨_, _, _, exec_of_ne_onlyMode hopen hm hne, rfl, nofun⟩

theorem exec_replied {c : Instr} (hc : isHostCommand c = true) (hwell : WellFormed c) (hopen : s.host.stage = .opened) :
    ∃ t, exec c s = .next t ∧ t.host.stage = .replied ∧ t.host.status = s.host.status := by
  by_cases hlisted : ∃ b, c = .badCommand b
  · obtain ⟨b, rfl⟩ := hlisted
    exact ⟨_, exec_badCommand_of_unlisted hopen (Option.isNone_iff_eq_none.1 hwell), rfl, rfl⟩
  · obtain ⟨t, r, data, ht, hhost, -⟩ := exec_answered hc (not_exists.1 hlisted) hopen
    exact ⟨t, ht, by rw [hhost], by rw [hhost]⟩

theorem State.after_of_next {c : Instr} (h : exec c s = .next t) : s.after c = t := by
  simp only [State.after, h]

/-- R165: the state after the fall of chip select. -/
theorem State.after_transactionStart (hidle : s.host.stage = .idle) (hreset : s.inReset = false) :
    s.after .transactionStart = { s with host := ⟨.opened, s.statusByte, []⟩ } :=
  State.after_of_next (exec_transactionStart_of_idle hidle hreset)

theorem State.dataOutput_of_replied (h : s.host.stage = .replied) (bit : Nat) :
    s.dataOutput bit = some ((s.host.reply.getD (bit / 8) 0).getLsbD (7 - bit % 8)) := by
  simp only [State.dataOutput, h, serialBit]

section
variable {c : Instr} (hc : isHostCommand c = true) (hwell : WellFormed c) (hidle : s.host.stage = .idle)
  (hreset : s.inReset = false) (ht : exec c { s with host := ⟨.opened, s.statusByte, []⟩ } = .next t) (more : List Byte)
include hc hwell hidle hreset ht

theorem State.clockIn_hostBytes : s.clockIn (c.hostBytes ++ more) = t := by
  rw [State.clockIn, hostCommand_hostBytes hc hwell, State.after_transactionStart hidle hreset]
  exact State.after_of_next ht

theorem State.clockedOut_hostBytes (k : Nat) :
    s.clockedOut (c.hostBytes ++ more) k =
      if k = 0 then s.statusByte
      else if k < c.hostBytes.length then 0
      else t.host.reply.getD (k - c.hostBytes.length) 0 := by
  obtain ⟨command, parameters, hbytes, hlength⟩ := hostBytes_length hc hwell
  cases k with
  | zero => exact congrArg (·.host.status) (State.after_transactionStart hidle hreset)
  | succ k =>
    have hclock := State.clockIn_hostBytes hc hwell hidle hreset ht more
    simp only [hlength, if_neg (Nat.succ_ne_zero k), Nat.add_lt_add_iff_right, Nat.add_sub_add_right]
    rw [hbytes] at hclock ⊢
    rw [← hclock]
    rfl

theorem State.serialOutput_hostBytes (hstage : t.host.stage = .replied) (falls : Nat) :
    s.serialOutput (c.hostBytes ++ more) falls =
      some ((s.clockedOut (c.hostBytes ++ more) (falls / 8)).getLsbD (7 - falls % 8)) := by
  rw [State.serialOutput, hostCommand_hostBytes hc hwell, State.clockedOut_hostBytes hc hwell hidle hreset ht,
    State.clockIn_hostBytes hc hwell hidle hreset ht, State.after_transactionStart hidle hreset]
  obtain ⟨command, parameters, -, hlength⟩ := hostBytes_length hc hwell
  by_cases hbefore : falls < 8 * c.hostBytes.length
  · have hbyte : falls / 8 < c.hostBytes.length := by omega
    simp only [if_pos hbefore, if_pos hbyte]
    rw [State.dataOutput_of_opened rfl]
    by_cases hfirst : falls < 8
    · simp [hfirst, Nat.div_eq_of_lt hfirst, Nat.mod_eq_of_lt hfirst]
    · have hlater : falls / 8 ≠ 0 := by omega
      simp [hfirst, hlater]
  · have hzero : falls / 8 ≠ 0 := by omega
    have hbyte : ¬falls / 8 < c.hostBytes.length := by omega
    have hindex : (falls - 8 * c.hostBytes.length) / 8 = falls / 8 - c.hostBytes.length := by omega
    have hbit : (falls - 8 * c.hostBytes.length) % 8 = falls % 8 := by omega
    simp only [if_neg hbefore, if_neg hzero, if_neg hbyte]
    rw [State.dataOutput_of_replied hstage, hindex, hbit]

end

theorem leBytes_word (v : BitVec 16) : leBytes 2 v.toNat = [v.extractLsb' 0 8, v.extractLsb' 8 8] := by
  rw [extractByte_eq v 0, extractByte_eq v 1]
  simp [leBytes]

theorem leBytes_value (v : BitVec 32) :
    leBytes 4 v.toNat = [v.extractLsb' 0 8, v.extractLsb' 8 8, v.extractLsb' 16 8, v.extractLsb' 24 8] := by
  rw [extractByte_eq v 0, extractByte_eq v 1, extractByte_eq v 2, extractByte_eq v 3]
  simp [leBytes, Nat.div_div_eq_div_mul]

/-- Settles O21: the bytes of each command are `hostBytes_eq`, and what goes out is read off them bit by bit. -/
theorem bytesNameCommands : Obligations.BytesNameCommands := by
  refine ⟨fun b s hopen hb => exec_badCommand_of_unlisted hopen (parameterCount_of_unlisted hb),
    fun c s hc hlisted hopen => ?_,
    fun c more hc hwell => ⟨hostCommand_hostBytes hc hwell more, fun n hn => hostCommand_take_hostBytes hc hwell hn⟩,
    fun a b d v w => ⟨rfl, rfl, rfl, rfl, rfl, rfl, rfl, rfl, ?_, rfl, rfl, ?_, rfl, rfl, rfl, rfl⟩,
    fun s bytes hidle hreset hnone falls => ?_, fun c s more hc hwell hidle hreset => ?_⟩
  · obtain ⟨t, r, data, ht, hhost, hbad⟩ := exec_answered hc hlisted hopen
    exact ⟨t, r.code, ht, by rw [hhost]; rfl, fun h => hbad (Result.code_eq_five h)⟩
  · rw [leBytes_value]
    rfl
  · rw [leBytes_word]
    rfl
  · rw [State.serialOutput, hnone, State.after_transactionStart hidle hreset]
    exact State.dataOutput_of_opened rfl falls
  · obtain ⟨t, ht, hstage, -⟩ := exec_replied (s := { s with host := ⟨.opened, s.statusByte, []⟩ }) hc hwell rfl
    have hclock := State.clockIn_hostBytes hc hwell hidle hreset ht more
    refine ⟨State.serialOutput_hostBytes hc hwell hidle hreset ht more hstage, t, ht, hclock, ?_,
      State.clockedOut_hostBytes hc hwell hidle hreset ht more⟩
    rw [State.transact, hclock]
    rfl

end Sys2Proof.Machine
end

section
/-! PROOFS. The layouts of what the host reads: Tables 1-7 to 1-9 and the replies of READ-ROSTER, READ-CHANGES and
READ-CLOCK. -/

namespace Sys2Proof.Machine

variable {s t u : State}

/-! ### Flags -/

theorem weigh_roster (present next agreed : Bool) (fl : Byte)
    (h : fl = BitVec.ofNat 8 (weigh present 1 + weigh next 2 + weigh agreed 4)) :
    fl.toNat < 8 ∧ fl.getLsbD 0 = present ∧ fl.getLsbD 1 = next ∧ fl.getLsbD 2 = agreed := by
  subst h
  revert present next agreed
  decide

theorem weigh_record (late forced unsure value loss dropped : Bool) (fl : Byte)
    (h : fl = BitVec.ofNat 8 (weigh late 2 + weigh forced 4 + weigh unsure 8 + weigh value 16 + weigh loss 32
      + weigh dropped 64)) :
    fl.getLsbD 0 = false ∧ fl.getLsbD 1 = late ∧ fl.getLsbD 2 = forced ∧ fl.getLsbD 3 = unsure ∧
      fl.getLsbD 4 = value ∧ fl.getLsbD 5 = loss ∧ fl.getLsbD 6 = dropped ∧ fl.getLsbD 7 = false := by
  subst h
  revert late forced unsure value loss dropped
  decide

theorem weigh_hole (late forced dropped : Bool) (fl : Byte)
    (h : fl = BitVec.ofNat 8 (1 + weigh late 2 + weigh forced 4 + weigh dropped 64)) :
    fl.getLsbD 0 = true ∧ fl.getLsbD 1 = late ∧ fl.getLsbD 2 = forced ∧ fl.getLsbD 3 = false ∧
      fl.getLsbD 4 = false ∧ fl.getLsbD 5 = false ∧ fl.getLsbD 6 = dropped ∧ fl.getLsbD 7 = false := by
  subst h
  revert late forced dropped
  decide

theorem toNat_stationByte (i : Station) : (BitVec.ofNat 8 i.val).toNat = i.val :=
  (BitVec.toNat_ofNat _ _).trans (Nat.mod_eq_of_lt (by omega))

/-! ### Journal entries and notes (Tables 1-7 to 1-9) -/

section
variable {d : List Byte} {late forced : Bool} {dropped : Option (BitVec 8)}

theorem record_layout {r : Record} (hd : d = JournalEntry.toBytes ⟨.record r, late, forced, dropped⟩) :
    (∃ fl, d[0]? = some fl ∧ fl.getLsbD 0 = false ∧ fl.getLsbD 1 = late ∧ fl.getLsbD 2 = forced ∧
      fl.getLsbD 3 = r.data.unsure ∧ fl.getLsbD 4 = r.data.value.isSome ∧ fl.getLsbD 5 = r.data.loss.isSome ∧
      fl.getLsbD 6 = dropped.isSome ∧ fl.getLsbD 7 = false) ∧
    (∃ st, d[1]? = some st ∧ st.toNat = r.station.val) ∧ d[2]? = some r.incarnation ∧
    takeField 2 (d.drop 3) = some (r.seq.toNat, d.drop 5) ∧
    (∃ ch, d[5]? = some ch ∧ ch.toNat = r.data.channel.val) ∧ d[6]? = some r.data.code ∧
    takeField 6 (d.drop 7) = some (r.data.timestamp.toNat, d.drop 13) ∧
    ∃ tail, tail = r.data.loss.toList ++ dropped.toList ∧
      (r.data.value = none → d.drop 13 = tail) ∧
      ∀ v, r.data.value = some v → takeField 2 (d.drop 13) = some (v.toNat, tail) := by
  subst hd
  refine ⟨⟨_, rfl, weigh_record _ _ _ _ _ _ _ rfl⟩, ⟨_, rfl, toNat_stationByte _⟩, rfl, takeField_seq _ _,
    ⟨_, rfl, toNat_stationByte _⟩, rfl, takeField_time _ _, _, rfl, fun hnone => ?_, fun v hv => ?_⟩
  · obtain ⟨station, inc, seq, channel, code, timestamp, unsure, value, loss⟩ := r
    subst hnone
    rfl
  · obtain ⟨station, inc, seq, channel, code, timestamp, unsure, value, loss⟩ := r
    subst hv
    exact takeField_seq v _

theorem hole_layout {h : Hole} (hd : d = JournalEntry.toBytes ⟨.hole h, late, forced, dropped⟩) :
    (∃ fl, d[0]? = some fl ∧ fl.getLsbD 0 = true ∧ fl.getLsbD 1 = late ∧ fl.getLsbD 2 = forced ∧
      fl.getLsbD 3 = false ∧ fl.getLsbD 4 = false ∧ fl.getLsbD 5 = false ∧ fl.getLsbD 6 = dropped.isSome ∧
      fl.getLsbD 7 = false) ∧
    (∃ st, d[1]? = some st ∧ st.toNat = h.station.val) ∧ d[2]? = some h.incarnation ∧
    takeField 2 (d.drop 3) = some (h.first.toNat, d.drop 5) ∧
    takeField 2 (d.drop 5) = some (h.count % 65536, d.drop 7) ∧
    d[7]? = some h.reason.code ∧
    takeField 6 (d.drop 8) = some (h.bound.toNat, d.drop 14) ∧ d.drop 14 = dropped.toList := by
  subst hd
  exact ⟨⟨_, rfl, weigh_hole _ _ _ _ rfl⟩, ⟨_, rfl, toNat_stationByte _⟩, rfl, takeField_seq _ _,
    takeField_leBytes 2 _ _, rfl, takeField_time _ _, rfl⟩

end

theorem Note.actionByte_toNat (n : Note) :
    n.actionByte.toNat = n.action.code + if n.action = .latch then 4 * n.slot.val else 0 := by
  have hcode : n.action.code ≤ 3 := by cases n.action <;> decide
  refine (BitVec.toNat_ofNat _ _).trans (Nat.mod_eq_of_lt ?_)
  split <;> omega

theorem note_layout {n : Note} {overflow : Bool} {d : List Byte} (hd : d = n.toBytes overflow) :
    d.length = 13 ∧ d[0]? = some (if overflow then 1 else 0) ∧
    (∃ st, d[1]? = some st ∧ st.toNat = n.station.val) ∧ (∃ ch, d[2]? = some ch ∧ ch.toNat = n.channel.val) ∧
    d[3]? = some n.code ∧ takeField 2 (d.drop 4) = some (n.seq.toNat, d.drop 6) ∧
    takeField 6 (d.drop 6) = some (n.timestamp.toNat, d.drop 12) ∧ d[12]? = some n.actionByte := by
  subst hd
  exact ⟨rfl, rfl, ⟨_, rfl, toNat_stationByte _⟩, ⟨_, rfl, toNat_stationByte _⟩, rfl, takeField_seq _ _,
    takeField_time _ _, rfl⟩

theorem signedField_toInt {v : Int} (hlow : -2 ^ 47 ≤ v) (hhigh : v < 2 ^ 47) : (signedField v).toInt = v := by
  rw [signedField, if_pos ⟨hlow, hhigh⟩, BitVec.toInt_ofInt]
  exact Int.bmod_eq_of_le (by omega) (by omega)

/-- Settles O12: a layout lemma for each table. -/
theorem hostLayouts : Obligations.HostLayouts := by
  refine ⟨fun r late forced dropped d hd => record_layout hd, fun h late forced dropped d hd => ?_,
    fun n overflow d hd => ?_, fun v hlow hhigh => signedField_toInt hlow hhigh⟩
  · obtain ⟨hflags, hstation, hinc, hfirst, hcount, hreason, hbound, htail⟩ := hole_layout hd
    exact ⟨hflags, hstation, hinc, hfirst, hcount, by rw [hreason]; cases h.reason <;> rfl, hbound, htail⟩
  · obtain ⟨hlength, hover, hstation, hchannel, hcode, hseq, htime, haction⟩ := note_layout hd
    refine ⟨hlength, hover, hstation, hchannel, hcode, hseq, htime, _, haction, ?_, ?_⟩
    all_goals rw [n.actionByte_toNat]
    · cases n.action <;> simp [Action.code]
    · cases n.action with
      | latch =>
        show (3 + 4 * n.slot.val) / 4 = n.slot.val
        omega
      | _ => simp [Action.code]

/-! ### READ-ROSTER (R67, R68) -/

theorem rosterBytes_layout {state inc : Byte} {flags : Nat} {lastHeard : Time} {offset : Int} {next : Seq} {hw : Time}
    {gaps : Nat} {d : List Byte} (hd : d = rosterBytes state inc flags lastHeard offset next hw gaps) :
    d.length = 24 ∧ d[0]? = some state ∧ d[1]? = some inc ∧ d[2]? = some (BitVec.ofNat 8 flags) ∧
      takeField 6 (d.drop 3) = some (lastHeard.toNat, d.drop 9) ∧
      takeField 6 (d.drop 9) = some ((signedField offset).toNat, d.drop 15) ∧
      takeField 2 (d.drop 15) = some (next.toNat, d.drop 17) ∧
      takeField 6 (d.drop 17) = some (hw.toNat, d.drop 23) ∧ d[23]? = some (BitVec.ofNat 8 gaps) := by
  subst hd
  exact ⟨rfl, rfl, rfl, rfl, takeField_time _ _, takeField_time _ _, takeField_seq _ _, takeField_time _ _, rfl⟩

theorem State.openGaps_eq (s : State) (i : Station) :
    s.openGaps i =
      (s.sequencer.gaps.filter fun g =>
        g.station == i && some g.incarnation == (s.seqEntry i).map (·.incarnation)).length := by
  cases h : s.seqEntry i <;> simp [State.openGaps, h]

theorem exec_readRoster_of_opened (h : s.host.stage = .opened) (b : Byte) :
    exec (.readRoster b) s = .next (s.readRoster b) :=
  congrArg Host.Outcome.next (State.take_of_opened _ h)

theorem State.readRoster_of_station {b : Byte} {i : Station} (h : i.val = b.toNat) :
    s.readRoster b = s.answer .ok (if i = s.own then s.ownBytes else s.peerBytes i) := by
  have hi : i = ⟨b.toNat, h ▸ i.isLt⟩ := Fin.ext h
  rw [hi]
  exact dif_pos _

/-- Settles O10: the layout of `rosterBytes`, with the values of a peer or of the own entry. -/
theorem readRosterFields : Obligations.ReadRosterFields := by
  intro s b hopen
  rw [exec_readRoster_of_opened hopen]
  refine ⟨fun hb => congrArg _ (dif_neg (by omega)), fun i hi => ?_⟩
  rw [State.readRoster_of_station hi]
  by_cases hown : i = s.own
  · obtain ⟨hlength, hstate, hinc, hflags, hheard, hoffset, hnext, hhw, hgaps⟩ := rosterBytes_layout (d := s.ownBytes) rfl
    rw [if_pos hown]
    refine ⟨_, rfl, hlength, fun h => absurd hown h, fun _ => ?_⟩
    refine ⟨?_, hown ▸ hinc, hflags, hown ▸ hheard, hoffset, hnext, hhw, hgaps⟩
    rw [hstate]
    cases s.mode <;> rfl
  · obtain ⟨hlength, hstate, hinc, hflags, hheard, hoffset, hnext, hhw, hgaps⟩ :=
      rosterBytes_layout (d := s.peerBytes i) rfl
    rw [if_neg hown]
    refine ⟨_, rfl, hlength, fun _ => ⟨?_, hinc, ⟨_, hflags, ?_⟩, hheard, hoffset, hnext, hhw, ?_⟩, fun h => absurd h hown⟩
    · rw [hstate]
      cases (s.entry i).state <;> rfl
    · obtain ⟨hsmall, hpresent, hset, hagreed⟩ := weigh_roster _ _ _ _ rfl
      refine ⟨hsmall, hpresent, hset, hagreed.trans ?_⟩
      cases (s.entry i).sample <;> rfl
    · rw [hgaps, State.openGaps_eq]

/-! ### READ-CHANGES and READ-CLOCK (R66, R52) -/

theorem State.getLsbD_changeSummary (s : State) (i : Station) : s.changeSummary.getLsbD i.val = (s.entry i).mark := by
  simp [State.changeSummary]

theorem exec_readChanges_of_opened (h : s.host.stage = .opened) :
    exec .readChanges s = .next (s.clearMarks.answer .ok (leBytes 4 s.changeSummary.toNat)) :=
  congrArg Host.Outcome.next (State.take_of_opened _ h)

theorem exec_readClock_of_opened (h : s.host.stage = .opened) :
    exec .readClock s = .next (({ s with clockChanged := false } : State).answer .ok s.clock.toBytes) :=
  congrArg Host.Outcome.next (State.take_of_opened _ h)

theorem clockBytes_layout {c : Clock} {d : List Byte} (hd : d = c.toBytes) :
    d.length = 15 ∧ d[0]? = some c.state.code ∧ takeField 6 (d.drop 1) = some (c.st.toNat, d.drop 7) ∧
      takeField 2 (d.drop 7) = some (c.debt % 65536, d.drop 9) ∧
      takeField 6 (d.drop 9) = some ((signedField c.lastM).toNat, []) := by
  subst hd
  refine ⟨rfl, rfl, takeField_time _ _, takeField_leBytes 2 _ _, ?_⟩
  exact (congrArg (takeField 6) (List.append_nil _).symm).trans (takeField_time _ [])

/-- With nothing held of a session, no mark is set. -/
theorem State.SetupClear.changeSummary (h : s.SetupClear) : s.changeSummary = 0 := by
  refine BitVec.eq_of_getLsbD_eq fun i hi => ?_
  rw [s.getLsbD_changeSummary ⟨i, hi⟩, h.entry]
  simp [RosterEntry.initial]

/-- Settles O11: what the two reads answer and clear. -/
theorem changesAndClockReads : Obligations.ChangesAndClockReads := by
  intro s hopen
  refine ⟨⟨s.clearMarks, s.changeSummary, exec_readChanges_of_opened hopen, s.getLsbD_changeSummary,
    s.entry_clearMarks, rfl, ?_, fun hclear hmode => (hclear hmode).changeSummary⟩, ?_⟩
  · refine Bool.eq_false_iff.2 fun hcause => ?_
    obtain ⟨i, hmark⟩ := State.rosterCause_iff.1 hcause
    rw [s.entry_clearMarks] at hmark
    cases hmark
  · obtain ⟨hlength, hstate, hst, hdebt, hlast⟩ := clockBytes_layout (d := s.clock.toBytes) rfl
    refine ⟨_, exec_readClock_of_opened hopen, hlength, ?_, hst, hdebt, hlast, fun hclear hmode => ?_⟩
    · rw [hstate]
      cases s.clock.state <;> rfl
    · have hempty := hclear hmode
      refine ⟨?_, ?_, ?_, hempty.clockChanged⟩
      all_goals
        rw [hempty.clock]
        rfl

end Sys2Proof.Machine
end

section
/-! PROOFS. Frame ends, frame starts, rotations and opportunities (R2, R13, R24, R27, R28, R33). -/

namespace Sys2Proof.Machine

variable {s t u : State}

/-! ### Counting without loss -/

theorem State.count_of_not_loss (s : State) {k : Counter} (h : k.isLoss = false) :
    s.count k = { s with counters := s.counters.advance k } := by
  rw [State.count, h, Bool.or_false]

theorem State.count_of_loss (s : State) {k : Counter} (h : k.isLoss = true) :
    s.count k = { s with counters := s.counters.advance k, lossAdvanced := true } := by
  rw [State.count, h, Bool.or_true]

/-! ### The frame end -/

theorem State.frameEndReached_iff : s.frameEndReached = true ↔ 12 * s.setup.bitTime ≤ s.line.settledIdle := by
  simp [State.frameEndReached, State.idleRun, frameEndBits]

theorem State.atFrameEnd_iff :
    s.atFrameEnd = true ↔
      s.mode.onLine = true ∧ s.line.lineState ≠ .idle ∧ s.line.flight = none ∧
        12 * s.setup.bitTime ≤ s.line.settledIdle := by
  simp [State.atFrameEnd, State.frameEndReached_iff, and_assoc]

theorem exec_frameEnd_of_atFrameEnd (h : s.atFrameEnd = true) :
    exec (.frameEnd s.line.receiver.bytes s.line.receiver.framingError) s = .next s.frameEnd :=
  if_pos ⟨h, rfl, rfl⟩

theorem exec_frameEnd_of_not {bytes : List Byte} {framingError : Bool}
    (h : ¬(s.atFrameEnd = true ∧ bytes = s.line.receiver.bytes ∧ framingError = s.line.receiver.framingError)) :
    exec (.frameEnd bytes framingError) s = .next s :=
  if_neg h

theorem State.frameEnd_of_receiving (h : s.line.lineState = .receiving) :
    s.frameEnd =
      s.takeFrame (classify s.line.receiver.bytes s.line.receiver.framingError) s.line.receiver.stamp
        s.line.receiver.stampL :=
  if_neg (by rw [h]; nofun)

theorem State.frameEnd_of_transmitting (h : s.line.lineState = .transmitting) :
    s.frameEnd = s.endOwnFrame (!s.line.receiver.bytes.isEmpty) := if_pos h

theorem exec_frameEnd_of_receiving (hmode : s.mode = .listening ∨ s.mode = .active ∨ s.mode = .leaving)
    (hstate : s.line.lineState = .receiving) (hflight : s.line.flight = none)
    (hidle : 12 * s.setup.bitTime ≤ s.line.settledIdle) {c : FrameClass}
    (hclass : classify s.line.receiver.bytes s.line.receiver.framingError = c) :
    exec (.frameEnd s.line.receiver.bytes s.line.receiver.framingError) s =
      .next (s.takeFrame c s.line.receiver.stamp s.line.receiver.stampL) := by
  have hend : s.atFrameEnd = true :=
    State.atFrameEnd_iff.2 ⟨(Mode.onLine_iff _).2 hmode, by rw [hstate]; nofun, hflight, hidle⟩
  rw [exec_frameEnd_of_atFrameEnd hend, State.frameEnd_of_receiving hstate, hclass]

/-- Settles O24: what a frame end makes of line access, then the two unread classes and the malformed one. -/
theorem badFrameEnds : Obligations.BadFrameEnds := by
  intro s hmode hstate hflight hidle
  refine ⟨s.line.countFrameEnd, countFrameEnd_counts s.line, fun hclass => ?_, fun sender hclass => ?_⟩
  · have hunread (c : FrameClass) (hc : c = .crcFailed ∨ c = .cutShort) (stamp stampL : Time) :
        s.takeFrame c stamp stampL = s.endUnreadFrame := by
      obtain rfl | rfl := hc <;> rfl
    rw [exec_frameEnd_of_receiving hmode hstate hflight hidle rfl, hunread _ hclass, State.endUnreadFrame,
      State.count_of_not_loss _ rfl]
    rfl
  · rw [exec_frameEnd_of_receiving hmode hstate hflight hidle hclass, State.takeFrame, State.endMalformedFrame,
      State.count_of_not_loss _ rfl]
    rfl

/-! ### The frame end of a GOOD frame -/

theorem Line.countFrameEnd_mute_iff (n : Line) : n.countFrameEnd.transmitter = .mute ↔ n.transmitter = .mute := by
  obtain ⟨hlowers, hends, hskips, hothers, -, -⟩ := countFrameEnd_counts n
  by_cases hbackoff : n.transmitter = .backoff
  · rw [hbackoff]
    cases hskip : n.skipFrameEnd with
    | true => rw [(hskips hskip).1, hbackoff]
    | false =>
      obtain hone | hmore := Nat.lt_or_ge 1 n.backoff
      · rw [(hlowers hskip hbackoff hone).1]
      · rw [(hends hskip hbackoff hmore).1]
        exact ⟨nofun, nofun⟩
  · rw [(hothers hbackoff).1]

theorem Line.goodRun_countFrameEnd (n : Line) : n.countFrameEnd.goodRun = n.goodRun :=
  (congrArg Line.goodRun (countFrameEnd_counts n).rest :)

/-- R13, R33, R35: the frame end of a GOOD frame, in terms of what the frame end alone makes of line access. -/
theorem Line.hearGood_endFrame (n : Line) (reference : Option Station) :
    (n.endFrame reference).hearGood =
      { (if n.transmitter = .mute ∧ 127 ≤ n.goodRun then
          { n.countFrameEnd with transmitter := .ready, failures := 0 } else n.countFrameEnd) with
        lineState := .idle, reference := reference, goodRun := min 128 (n.goodRun + 1)
        receiver := ⟨n.receiver.phase, [], false, 0, 0⟩ } := by
  have hrun : (n.endFrame reference).goodRun = n.goodRun := n.goodRun_countFrameEnd
  by_cases hmute : n.transmitter = .mute ∧ 127 ≤ n.goodRun
  · have hcap : goodRunCap ≤ (n.endFrame reference).goodRun + 1 := by
      rw [hrun]
      exact Nat.succ_le_succ hmute.2
    have hmuted : (n.endFrame reference).transmitter = .mute := n.countFrameEnd_mute_iff.2 hmute.1
    rw [if_pos hmute, Line.hearGood_of_mute_of_cap_le hmuted hcap, Nat.min_eq_left (Nat.succ_le_succ hmute.2)]
    rfl
  · have hnot : ¬(min goodRunCap ((n.endFrame reference).goodRun + 1) = goodRunCap ∧
        (n.endFrame reference).transmitter = .mute) := by
      rintro ⟨hcap, hready⟩
      refine hmute ⟨n.countFrameEnd_mute_iff.1 hready, ?_⟩
      rw [hrun] at hcap
      exact Nat.le_of_succ_le_succ (min_eq_left_iff.1 hcap)
    rw [if_neg hmute, Line.hearGood, if_neg hnot, hrun]
    rfl

/-- The state after line access has taken a GOOD frame from `sender`. -/
def State.heardGood (s : State) (sender : Station) : State :=
  { s with
    line :=
      { (if s.line.transmitter = .mute ∧ 127 ≤ s.line.goodRun then
          { s.line.countFrameEnd with transmitter := .ready, failures := 0 } else s.line.countFrameEnd) with
        lineState := .idle, reference := some sender, observed := true
        goodRun := min 128 (s.line.goodRun + 1)
        receiver := ⟨s.line.receiver.phase, [], false, 0, 0⟩ }
    counters := s.counters.advance .framesGood }

theorem State.endGoodFrame_eq_heardGood (s : State) (sender : Station) : s.endGoodFrame sender = s.heardGood sender := by
  rw [endGoodFrame_eq, Line.hearGood_endFrame]
  rfl

/-- Settles O25: the frame is counted, and then the station stops. -/
theorem duplicateNumberStops : Obligations.DuplicateNumberStops := by
  intro s f hmode hstate hflight hidle hclass hown
  refine ⟨s.line.countFrameEnd, _, countFrameEnd_counts s.line,
    exec_frameEnd_of_receiving hmode hstate hflight hidle hclass, ?_, ?_, ?_⟩
  all_goals simp only [State.takeFrame, State.endGoodFrame_eq_heardGood, hown]
  · rfl
  · rfl
  · exact State.fault_iff _ |>.2 (.inr rfl)

/-- Settles O26: line access first, then the three takers in order. -/
theorem goodFrameHandedOn : Obligations.GoodFrameHandedOn := by
  intro s f hmode hstate hflight hidle hclass hother
  refine ⟨s.line.countFrameEnd, s.heardGood f.sender, countFrameEnd_counts s.line, rfl, ?_⟩
  rw [exec_frameEnd_of_receiving hmode hstate hflight hidle hclass, State.takeFrame, if_neg hother,
    State.endGoodFrame_eq_heardGood]
  rfl

/-! ### The other events of the receiver (R2, R14, R26) -/

theorem Line.settledIdle_of_falling {n : Line} {f : Fall} (h : n.receiver.phase = .falling f) : n.settledIdle = f.idle := by
  simp only [Line.settledIdle, h]

theorem Line.settledIdle_of_not_falling {n : Line} (h : ∀ f, n.receiver.phase ≠ .falling f) : n.settledIdle = n.idle := by
  unfold Line.settledIdle
  split
  · next f hf => exact absurd hf (h f)
  all_goals rfl

theorem exec_frameStart_of_confirmed {f : Fall} {bits : Nat} {value : Byte}
    (hphase : s.line.receiver.phase = .reading f bits value) (hline : s.mode.onLine = true)
    (hstate : s.line.lineState = .idle) (hidle : 12 * s.setup.bitTime ≤ f.idle) :
    exec .frameStart s =
      .next { s with
        line :=
          { s.line.restartIdle with
            lineState := .receiving
            receiver := .openAt (.reading { f with idle := 0 } bits value) f } } := by
  have hfall : s.frameStartFall = some f := by
    simp only [State.frameStartFall, hphase]
    exact if_pos hidle
  simp only [exec, execFrameStart, hphase, hfall, if_pos (And.intro hline hstate)]

theorem State.le_idle_of_frameStartFall {f : Fall} (h : s.frameStartFall = some f) :
    ∃ bits value, s.line.receiver.phase = .reading f bits value ∧ 12 * s.setup.bitTime ≤ f.idle := by
  unfold State.frameStartFall at h
  split at h
  · next hphase =>
    obtain ⟨hidle, hsome⟩ := Option.ite_none_right_eq_some.1 h
    cases hsome
    exact ⟨_, _, hphase, hidle⟩
  all_goals cases h

theorem exec_frameStart_of_not (h : s.line.lineState ≠ .idle ∨
    ∀ f bits value, s.line.receiver.phase = .reading f bits value → f.idle < 12 * s.setup.bitTime) :
    exec .frameStart s = .next s := by
  show execFrameStart s = _
  unfold execFrameStart
  split
  · next f' bits value f hphase hfall =>
    refine if_neg fun ⟨_, hstate⟩ => ?_
    obtain hne | hearly := h
    · exact hne hstate
    · obtain ⟨_, _, hreading, hidle⟩ := State.le_idle_of_frameStartFall hfall
      exact absurd (hearly _ _ _ hreading) (Nat.not_lt.2 hidle)
  · rfl

theorem exec_lineRelease_of_held {rested : Nat} (hphase : s.line.receiver.phase = .held rested)
    (hline : s.mode.onLine = true) (hdata : s.receiveData = true) :
    exec .lineReleaseAfterFramingError s = .next { s with line := s.line.takeRelease rested } := by
  simp only [exec, execLineRelease, hphase, if_pos (And.intro hline hdata)]

theorem exec_lineRelease_of_not (h : (∀ rested, s.line.receiver.phase ≠ .held rested) ∨ s.receiveData = false) :
    exec .lineReleaseAfterFramingError s = .next s := by
  show execLineRelease s = _
  unfold execLineRelease
  split
  · next rested hphase =>
    refine if_neg fun ⟨_, hdata⟩ => ?_
    obtain hnot | hlow := h
    · exact hnot rested hphase
    · exact Bool.false_ne_true (hlow.symm.trans hdata)
  all_goals rfl

/-- Settles O23: each event of the receiver, where it has occurred and where it has not. -/
theorem receiverEvents : Obligations.ReceiverEvents := by
  intro s hmode
  have hline : s.mode.onLine = true := (Mode.onLine_iff _).2 hmode
  refine ⟨fun f bits value hphase hstate hidle => exec_frameStart_of_confirmed hphase hline hstate hidle,
    exec_frameStart_of_not, fun rested hphase hdata => exec_lineRelease_of_held hphase hline hdata,
    exec_lineRelease_of_not, ⟨fun f hf => Line.settledIdle_of_falling hf, Line.settledIdle_of_not_falling⟩,
    fun bytes framingError hnot => exec_frameEnd_of_not ?_, fun hstate hflight hidle => ?_⟩
  · rintro ⟨hend, hbytes, hmark⟩
    obtain ⟨-, hopen, hflight, hreached⟩ := State.atFrameEnd_iff.1 hend
    obtain h | h | h | h | h := hnot
    · exact hopen h
    · exact h hflight
    · omega
    · exact h hbytes
    · exact h hmark
  · have hend : s.atFrameEnd = true := State.atFrameEnd_iff.2 ⟨hline, by rw [hstate]; nofun, hflight, hidle⟩
    refine ⟨s.line.countFrameEnd, countFrameEnd_counts s.line, ?_⟩
    rw [exec_frameEnd_of_atFrameEnd hend, State.frameEnd_of_transmitting hstate, State.endOwnFrame]
    cases hbytes : s.line.receiver.bytes with
    | nil => rfl
    | cons b bs =>
      rw [if_neg (List.cons_ne_nil b bs)]
      exact congrArg _ (State.count_of_not_loss _ rfl)

/-! ### Rotations and opportunities (R27, R28, R33) -/

theorem exec_emptyRotation_of_reached (hline : s.mode.onLine = true) (h : s.nextRotation ≤ s.line.settledIdle) :
    exec .emptyRotation s =
      .next ({ s with line := { s.countRotation with observed := true } } : State).tryActive.settle :=
  if_pos ⟨hline, h⟩

theorem exec_emptyRotation_of_not (h : s.line.settledIdle < s.nextRotation) : exec .emptyRotation s = .next s :=
  if_neg fun ⟨_, hreached⟩ => absurd hreached (Nat.not_le.2 h)

theorem State.countRotation_of_last (h : s.line.transmitter = .backoff) (hlast : s.line.backoff ≤ 1) :
    s.countRotation =
      { s.line with
        rotations := s.line.rotations + 1, transmitter := .ready, backoff := 0
        opportunityFloor := max s.line.opportunityFloor (s.nextRotation + 1) } :=
  (if_pos h).trans (if_pos hlast)

theorem State.countRotation_of_more (h : s.line.transmitter = .backoff) (hmore : 1 < s.line.backoff) :
    s.countRotation = { s.line with rotations := s.line.rotations + 1, backoff := s.line.backoff - 1 } :=
  (if_pos h).trans (if_neg (Nat.not_le.2 hmore))

theorem State.countRotation_of_ne (h : s.line.transmitter ≠ .backoff) :
    s.countRotation = { s.line with rotations := s.line.rotations + 1 } := if_neg h

/-- Settles O28: frame ends by `countFrameEnd_counts`, and an empty rotation by what the transmitter is. -/
theorem backoffCounts : Obligations.BackoffCounts := by
  refine ⟨fun n ref => ⟨n.countFrameEnd, countFrameEnd_counts n, rfl⟩, fun s hmode => ?_⟩
  refine ⟨s.nextRotation, rfl, exec_emptyRotation_of_not, fun hreached => ?_⟩
  refine ⟨_, exec_emptyRotation_of_reached ((Mode.onLine_iff _).2 hmode) hreached, ?_, fun hbackoff hmore => ?_,
    fun hbackoff hlast => ?_, fun hother => ?_⟩
  · by_cases hbackoff : s.line.transmitter = .backoff
    · obtain hmore | hlast := Nat.lt_or_ge 1 s.line.backoff
      · rw [State.countRotation_of_more hbackoff hmore]
      · rw [State.countRotation_of_last hbackoff hlast]
    · rw [State.countRotation_of_ne hbackoff]
  · rw [State.countRotation_of_more hbackoff hmore]
    exact ⟨hbackoff, rfl, rfl⟩
  · rw [State.countRotation_of_last hbackoff hlast]
    exact ⟨rfl, rfl, rfl⟩
  · rw [State.countRotation_of_ne hother]
    exact ⟨rfl, rfl, rfl⟩

theorem State.rank_of_reference {r : Station} (h : s.line.reference = some r) : s.rank = (s.own - r - 1).val := by
  simp only [State.rank, h]

theorem Phase.waits_iff (p : Phase) : p.waits = true ↔ p = .searching ∨ ∃ f, p = .falling f := by
  cases p <;> simp [Phase.waits]

/-- R28: opportunities stand a rotation apart from the first on. -/
theorem State.opportunity_iff (s : State) :
    (s.firstOpportunity ≤ s.line.idle ∧ (s.line.idle - s.firstOpportunity) % s.rotationLength = 0) ↔
      ∃ k : Nat, s.line.idle = (16 + (s.rank + 32 * k) * s.setup.slotWidth) * s.setup.bitTime := by
  have hnth (k : Nat) :
      (16 + (s.rank + 32 * k) * s.setup.slotWidth) * s.setup.bitTime = s.firstOpportunity + s.rotationLength * k := by
    rw [State.firstOpportunity, State.rotationLength]
    ring
  constructor
  · rintro ⟨hfirst, hrotation⟩
    obtain ⟨k, hk⟩ := Nat.dvd_of_mod_eq_zero hrotation
    exact ⟨k, by rw [hnth]; omega⟩
  · rintro ⟨k, hk⟩
    rw [hk, hnth]
    exact ⟨Nat.le_add_right _ _, by rw [Nat.add_sub_cancel_left, Nat.mul_mod_right]⟩

/-- Settles O29: the rank modulo 32, and the opportunities of all rotations. -/
theorem rankAndOpportunities : Obligations.RankAndOpportunities := by
  intro s
  refine ⟨fun h => ?_, fun r h => ?_, ?_⟩
  · simp only [State.rank, h]
  · rw [State.rank_of_reference h]
    refine ⟨Fin.isLt _, ?_⟩
    simp only [Fin.sub_def, Fin.val_one]
    omega
  · rw [← s.opportunity_iff, ← Mode.onLine_iff, ← Phase.waits_iff]
    simp only [State.atOpportunity, Bool.and_eq_true, beq_iff_eq, decide_eq_true_eq]
    tauto

theorem State.arbitrate_passOpportunity (s : State) : s.passOpportunity.arbitrate = s.arbitrate := rfl

theorem exec_opportunity_of_not (h : s.atOpportunity = false) : exec .opportunity s = .next s :=
  if_neg (by rw [h]; nofun)

theorem exec_opportunity_of_at (h : s.atOpportunity = true) :
    exec .opportunity s = .next s.passOpportunity.useOpportunity := if_pos h

/-- Settles O30: the opportunity passes, and the frame due, if there is one, begins. -/
theorem opportunityStartsFrameDue : Obligations.OpportunityStartsFrameDue := by
  intro s
  refine ⟨exec_opportunity_of_not, fun hat => ⟨fun body covered hmode hstate hready hdue => ?_, fun hnone => ?_⟩⟩
  · have hmay : s.passOpportunity.maySend = true :=
      State.maySend_iff.2 ⟨(Mode.working_iff _).2 hmode, hstate, hready⟩
    rw [exec_opportunity_of_at hat, State.useOpportunity, if_pos hmay, State.arbitrate_passOpportunity, hdue,
      ← State.clockAgreed_eq]
    rfl
  · rw [exec_opportunity_of_at hat, State.useOpportunity, State.arbitrate_passOpportunity]
    split
    · next hmay =>
      obtain ⟨hmode, hstate, hready⟩ := State.maySend_iff.1 hmay
      obtain hnot | hnone := hnone
      · exact absurd ⟨(Mode.working_iff _).1 hmode, hstate, hready⟩ hnot
      · rw [hnone]
        rfl
    · rfl

end Sys2Proof.Machine
end

section
/-! PROOFS. The earliest of several times, the arbiter, and the outcome of an own frame (R29, R31, R32, R103). -/

namespace Sys2Proof.Machine

variable {s t u : State}

/-! ### The earliest of several times -/

theorem earliestOf_mem (t : Time) (ts : List Time) : earliestOf t ts ∈ t :: ts := by
  have hopen (n : Nat) : (t :: ts).getD (n % (t :: ts).length) t ∈ t :: ts := by
    have hlt : n % (t :: ts).length < (t :: ts).length := Nat.mod_lt _ (Nat.succ_pos _)
    rw [List.getD_eq_getElem _ _ hlt]
    exact List.getElem_mem hlt
  unfold earliestOf
  split
  · next a as hfilter =>
    split
    · have ha : a ∈ (t :: ts).filter fun a => isEarliestOf a (t :: ts) := by
        rw [hfilter]
        exact List.mem_cons_self
      exact (List.mem_filter.1 ha).1
    · exact hopen _
  · exact hopen _

/-- 00, Time: within half the range of the count from a base, one time is not after another exactly when it lies no
further from the base. -/
theorem eq_or_timeEarlier_iff {a b base : Time} (ha : (a - base).toNat < 2 ^ 47) (hb : (b - base).toNat < 2 ^ 47) :
    (a == b || timeEarlier a b) = true ↔ (a - base).toNat ≤ (b - base).toNat := by
  have hdiff : (b - a).toNat = (2 ^ 48 - (a - base).toNat + (b - base).toNat) % 2 ^ 48 := by
    simp only [BitVec.toNat_sub]
    omega
  have heq : a = b ↔ (a - base).toNat = (b - base).toNat := by
    rw [BitVec.toNat_inj]
    exact ⟨fun h => h ▸ rfl, fun h => by simpa using h⟩
  simp only [Bool.or_eq_true, beq_iff_eq, heq, timeEarlier, decide_eq_true_eq, hdiff]
  omega

theorem isEarliestOf_iff {a base : Time} {ts : List Time} (ha : (a - base).toNat < 2 ^ 47)
    (hts : ∀ x ∈ ts, (x - base).toNat < 2 ^ 47) :
    isEarliestOf a ts = true ↔ ∀ x ∈ ts, (a - base).toNat ≤ (x - base).toNat := by
  rw [isEarliestOf, List.all_eq_true]
  exact forall₂_congr fun x hx => eq_or_timeEarlier_iff ha (hts x hx)

/-- Where the times lie within half the range of the count from a base, the earliest is the one nearest to the base. -/
theorem earliestOf_le {t base : Time} {ts : List Time} (h : ∀ x ∈ t :: ts, (x - base).toNat < 2 ^ 47) :
    ∀ x ∈ t :: ts, (earliestOf t ts - base).toNat ≤ (x - base).toNat := by
  have hiff {a : Time} (ha : a ∈ t :: ts) := isEarliestOf_iff (h a ha) h
  obtain ⟨m, hm⟩ := Option.ne_none_iff_exists'.1
    (mt List.argmin_eq_none.1 (List.cons_ne_nil t ts) : List.argmin (fun x => (x - base).toNat) (t :: ts) ≠ none)
  have hmem : m ∈ t :: ts := List.argmin_mem hm
  have hleast : ∀ x ∈ t :: ts, (m - base).toNat ≤ (x - base).toNat := fun x hx =>
    List.le_of_mem_argmin (f := fun x : Time => (x - base).toNat) hx hm
  have hfound : m ∈ (t :: ts).filter fun a => isEarliestOf a (t :: ts) :=
    List.mem_filter.2 ⟨hmem, (hiff hmem).2 hleast⟩
  have honly : ∀ a ∈ (t :: ts).filter fun a => isEarliestOf a (t :: ts), a = m := by
    intro a ha
    obtain ⟨hin, hearliest⟩ := List.mem_filter.1 ha
    have hsame : (a - base).toNat = (m - base).toNat :=
      Nat.le_antisymm ((hiff hin).1 hearliest m hmem) (hleast a hin)
    simpa using BitVec.eq_of_toNat_eq hsame
  have hresult : earliestOf t ts = m := by
    unfold earliestOf
    split
    · next a as hfilter =>
      rw [hfilter] at honly
      have ha : a = m := honly a List.mem_cons_self
      rw [if_pos, ha]
      simpa [ha] using fun x hx => honly x (List.mem_cons_of_mem a hx)
    · next hnone =>
      rw [hnone] at hfound
      cases hfound
  rw [hresult]
  exact hleast

/-! ### The gap a REQUEST asks for (R103) -/

/-- R103: the gap found is due, and of all due gaps of its deadline it stands first in the table. -/
theorem earliestDue_eq_some {gaps : List Gap} {g : Gap} (h : earliestDue gaps = some g) :
    ∃ first rest, gaps.filter (·.due) = first :: rest ∧
      g.deadline = earliestOf first.deadline (rest.map (·.deadline)) ∧
      ∃ above below, first :: rest = above ++ g :: below ∧ ∀ x ∈ above, x.deadline ≠ g.deadline := by
  unfold earliestDue at h
  split at h
  · cases h
  · next first rest hfilter =>
    obtain ⟨hdeadline, above, below, hsplit, habove⟩ := List.find?_eq_some_iff_append.1 h
    have heq := beq_iff_eq.1 hdeadline
    refine ⟨first, rest, hfilter, heq, above, below, hsplit, fun x hx => ?_⟩
    rw [heq]
    simpa using habove x hx

theorem earliestDue_eq_none {gaps : List Gap} : earliestDue gaps = none ↔ ∀ g ∈ gaps, g.due = false := by
  unfold earliestDue
  split
  · next hnone => simpa using List.filter_eq_nil_iff.1 hnone
  · next first rest hfilter =>
    have hdue : first ∈ gaps.filter (·.due) := hfilter ▸ List.mem_cons_self
    obtain ⟨hin, hset⟩ := List.mem_filter.1 hdue
    refine iff_of_false (fun hnone => ?_) fun hall => Bool.false_ne_true ((hall first hin).symm.trans hset)
    have hmem := earliestOf_mem first.deadline (rest.map (·.deadline))
    rw [← List.map_cons (f := fun g : Gap => g.deadline)] at hmem
    obtain ⟨x, hx, hdeadline⟩ := List.mem_map.1 hmem
    exact List.find?_eq_none.1 hnone x hx (beq_iff_eq.2 hdeadline)

theorem State.requestBody_eq_some {body : Body} {covered : List (Station × Seq)}
    (h : s.requestBody = some (body, covered)) :
    ∃ g, earliestDue s.sequencer.gaps = some g ∧
      body = .request g.station g.incarnation ((s.requestGaps g.station).map (·.range)) ∧
      covered = (s.requestGaps g.station).map fun g => (g.station, g.first) := by
  unfold State.requestBody at h
  split at h
  · cases h
  · next g hg =>
    cases h
    exact ⟨g, hg, rfl, rfl⟩

theorem State.requestBody_eq_none : s.requestBody = none ↔ ∀ g ∈ s.sequencer.gaps, g.due = false := by
  rw [← earliestDue_eq_none]
  unfold State.requestBody
  split
  · next h => exact iff_of_true rfl h
  · next g h => exact iff_of_false nofun (by rw [h]; nofun)

/-- R103: which gap a REQUEST asks for. -/
theorem requested_gap_earliest {g : Gap} (h : earliestDue s.sequencer.gaps = some g) :
    g ∈ s.sequencer.gaps ∧ g.due = true ∧
      ∀ base : Time, (∀ x ∈ s.sequencer.gaps, x.due = true → (x.deadline - base).toNat < 2 ^ 47) →
        ∀ x ∈ s.sequencer.gaps, x.due = true →
          (g.deadline - base).toNat ≤ (x.deadline - base).toNat ∧
            (s.StoresRight → x.deadline = g.deadline → g.station ≤ x.station) := by
  obtain ⟨first, rest, hfilter, hdeadline, above, below, hsplit, habove⟩ := earliestDue_eq_some h
  have hlist := hfilter.trans hsplit
  have hdue {x : Gap} : x ∈ first :: rest ↔ x ∈ s.sequencer.gaps ∧ x.due = true := by
    rw [← hfilter, List.mem_filter]
  have hg : g ∈ first :: rest := by
    rw [hsplit]
    exact List.mem_append_right _ List.mem_cons_self
  refine ⟨(hdue.1 hg).1, (hdue.1 hg).2, fun base hrange x hin hset => ⟨?_, fun hright hsame => ?_⟩⟩
  · rw [hdeadline]
    refine earliestOf_le (fun y hy => ?_) x.deadline ?_
    · rw [← List.map_cons (f := fun g : Gap => g.deadline)] at hy
      obtain ⟨z, hz, rfl⟩ := List.mem_map.1 hy
      exact hrange z (hdue.1 hz).1 (hdue.1 hz).2
    · rw [← List.map_cons (f := fun g : Gap => g.deadline)]
      exact List.mem_map_of_mem (hdue.2 ⟨hin, hset⟩)
  · have hordered : (above ++ g :: below).Pairwise fun a b => a.station ≤ b.station :=
      hlist ▸ hright.gapOrder.sublist List.filter_sublist
    have hx : x ∈ above ++ g :: below := hsplit ▸ hdue.2 ⟨hin, hset⟩
    obtain hbefore | hbehind := List.mem_append.1 hx
    · exact absurd hsame (habove x hbefore)
    · obtain rfl | hbelow := List.mem_cons.1 hbehind
      · exact le_rfl
      · exact List.rel_of_pairwise_cons (List.pairwise_append.1 hordered).2.1 hbelow

/-! ### The arbiter (R29) -/

theorem State.arbitrate_of_request {r : Body × List (Station × Seq)} (hmode : s.mode = .active)
    (h : s.requestBody = some r) : s.arbitrate = some r := by
  simp only [State.arbitrate, if_pos hmode, h]

theorem State.arbitrate_of_no_request (h : s.mode = .active → s.requestBody = none) :
    s.arbitrate =
      match s.outbound.jobs with
      | job :: _ => some (s.repeatBody job, [])
      | [] =>
        match s.outbound.outq with
        | head :: _ => some (s.eventBody head, [])
        | [] =>
          if s.mode = .leaving then some (s.beaconBody true, [])
          else if s.mode = .active ∧ s.outbound.beaconDue then some (s.beaconBody false, [])
          else none := by
  have hnone : (if s.mode = .active then s.requestBody else none) = none := by
    split
    · next hmode => exact h hmode
    · rfl
  simp only [State.arbitrate, hnone] <;> rfl

theorem State.repeatBody_of_cons {j : SeqRange} {oldest : Record} {rest : List Record}
    (h : s.outbound.history = oldest :: rest) :
    s.repeatBody j =
      if seqBelow j.first oldest.seq then
        .repeatGone j.first (BitVec.ofNat 8 (min (oldest.seq - j.first).toNat j.count.toNat))
      else
        .repeatRecords j.first
          (((s.outbound.history.drop (j.first - oldest.seq).toNat).take (min 8 j.count.toNat)).map (·.data)) := by
  have hfirst : firstSeqOf s.outbound.history = some oldest.seq := by rw [h]; rfl
  simp only [State.repeatBody, hfirst]
  rfl

/-- Settles O31: the order of the sources, and the contents of each frame. -/
theorem arbiterOrderAndContents : Obligations.ArbiterOrderAndContents := by
  intro s
  refine ⟨fun g hmode hin hdue => ?_, fun hquiet => ?_, fun r rest houtq => ?_, fun j oldest rest hhistory => ?_,
    fun body covered hbody => ?_⟩
  · have hsome : s.requestBody ≠ none := fun hnone =>
      Bool.false_ne_true ((State.requestBody_eq_none.1 hnone g hin).symm.trans hdue)
    obtain ⟨⟨body, covered⟩, hr⟩ := Option.ne_none_iff_exists'.1 hsome
    exact ⟨(State.arbitrate_of_request hmode hr).trans hr.symm, body, covered, hr⟩
  · have hnone : s.mode = .active → s.requestBody = none := by
      intro hmode
      obtain hleaving | hdue := hquiet
      · cases hmode.symm.trans hleaving
      · exact State.requestBody_eq_none.2 hdue
    rw [State.arbitrate_of_no_request hnone]
    refine ⟨fun j rest hjobs => by rw [hjobs], fun r rest hjobs houtq => by rw [hjobs, houtq], fun hjobs houtq => ?_⟩
    rw [hjobs, houtq]
    refine ⟨fun hmode => if_pos hmode, fun hmode hdue => ?_, fun hmode hdue => ?_⟩
    · exact (if_neg (by rw [hmode]; nofun)).trans (if_pos ⟨hmode, hdue⟩)
    · exact (if_neg (by rw [hmode]; nofun)).trans (if_neg (by rw [hdue]; nofun))
  · rw [State.eventBody, List.length_take]
    rfl
  · rw [State.repeatBody_of_cons hhistory]
    exact ⟨fun h => if_pos h, fun h => if_neg (by rw [h]; nofun)⟩
  · obtain ⟨g, hg, hrequest, hcovered⟩ := State.requestBody_eq_some hbody
    obtain ⟨hin, hdue, hleast⟩ := requested_gap_earliest hg
    exact ⟨g, hin, hdue, hleast, hrequest, hcovered⟩

/-! ### The completion of an own frame (R31) -/

theorem exec_completion_of_not {f : Flight} (hflight : s.line.flight = some f)
    (h : f.mismatch ≠ none ∨ (s.l - f.startL).toNat < 10 * f.frame.toBytes.length * s.setup.bitTime) :
    exec .completion s = .next s := by
  have hnot : ¬(f.mismatch = none ∧ s.flightOver f = true) := by
    rintro ⟨hnone, hover⟩
    have hle : 10 * f.frame.toBytes.length * s.setup.bitTime ≤ (s.l - f.startL).toNat := of_decide_eq_true hover
    obtain hbad | hearly := h
    · exact hbad hnone
    · omega
  simp only [exec, execCompletion, hflight, if_neg hnot]

theorem State.lossAdvanced_countCompleted (s : State) (b : Body) : (s.countCompleted b).lossAdvanced = s.lossAdvanced := by
  cases b <;> simp [State.countCompleted, Counter.isLoss]

/-- R81: what the outbound side makes of a completed EVENT. -/
theorem Outbound.completed_event (o : Outbound) (wm : Time) (first : Seq) (recs : List EventData) :
    o.completed (.event wm first recs) =
      { o with
        outq := o.outq.drop recs.length
        history :=
          (o.history ++ o.outq.take recs.length).drop (o.history.length + min recs.length o.outq.length - 128)
        sentCount := min 32768 (o.sentCount + min recs.length o.outq.length)
        lastWatermark := wm } := by
  simp [Outbound.completed, Outbound.sendHead, historyCapacity, sentCountCap]

theorem Outbound.shrinkJob_of_cons {o : Outbound} {j : SeqRange} {rest : List SeqRange} (h : o.jobs = j :: rest)
    (n : Nat) :
    o.shrinkJob n =
      { o with
        jobs :=
          if j.count.toNat ≤ n then rest else ⟨j.first + BitVec.ofNat 16 n, j.count - BitVec.ofNat 8 n⟩ :: rest } := by
  simp only [Outbound.shrinkJob, h]
  split <;> rfl

theorem Outbound.shrinkJob_of_nil {o : Outbound} (h : o.jobs = []) (n : Nat) : o.shrinkJob n = o := by
  simp only [Outbound.shrinkJob, h]

/-- R89: both forms of a REPEAT shrink the front job by what they carried. -/
theorem completed_repeat {b : Body} {n : Nat}
    (h : (∃ first recs, b = .repeatRecords first recs ∧ n = recs.length) ∨
      ∃ first count, b = .repeatGone first count ∧ n = count.toNat) :
    (∀ o : Outbound, o.completed b = o.shrinkJob n) ∧ ∀ s : State, s.countCompleted b = s.count .repeatsSent := by
  obtain ⟨first, recs, rfl, rfl⟩ | ⟨first, count, rfl, rfl⟩ := h
  all_goals exact ⟨fun _ => rfl, fun _ => rfl⟩

/-- R104: the gaps after the completion of a REQUEST that covers `covered`. -/
theorem State.gaps_requestCompleted (s : State) (covered : List (Station × Seq)) :
    (s.requestCompleted covered).sequencer.gaps =
      s.sequencer.gaps.map fun g =>
        if (g.station, g.first) ∈ covered then
          { g with
            tries := g.tries + 1, state := .requested, deadline := s.l + millis s.setup.requestTimeout, due := false }
        else g := by
  simp [State.requestCompleted]

/-- Settles O32: `completeFrame_eq`, and the kind of frame decides the outbound side and the counter. -/
theorem completionTellsTheSource : Obligations.CompletionTellsTheSource := by
  intro s f hflight
  refine ⟨exec_completion_of_not hflight, fun hmismatch hover hstays => ?_⟩
  have hnot : f.frame.body.isLeaving = false := by
    cases hbody : f.frame.body with
    | beacon wm next leaving =>
      cases leaving with
      | false => rfl
      | true => exact absurd hbody (hstays wm next)
    | _ => rfl
  have hexec : exec .completion s = .next (s.completeFrame f) := by
    rw [exec_completion_of_over hflight hmismatch hover, hnot]
    rfl
  rw [hexec, completeFrame_eq]
  refine ⟨_, _, rfl, rfl, rfl, rfl, ?_, fun wm first recs hbody => ?_, fun wm next hbody => ?_,
    fun target inc ranges hbody => ?_,
    fun n hrepeat => ?_, rfl, s.gaps_requestCompleted _⟩
  · rw [State.lossAdvanced_countCompleted]
  · rw [hbody, Outbound.completed_event]
    exact ⟨by dsimp only, rfl⟩
  · rw [hbody]
    exact ⟨rfl, rfl⟩
  · rw [hbody]
    exact ⟨rfl, rfl⟩
  · obtain ⟨hcompleted, hcount⟩ := completed_repeat hrepeat
    rw [hcompleted, hcount]
    refine ⟨rfl, fun hjobs => ?_, fun j rest hjobs => ?_⟩
    · rw [Outbound.shrinkJob_of_nil hjobs]
    · rw [Outbound.shrinkJob_of_cons hjobs]

/-! ### A failed attempt (R30, R32, R34) -/

theorem lineBit_of_byte {bs : List Byte} {i : Nat} {b : Byte} (h : bs[i / 10]? = some b) :
    lineBit bs i = if i % 10 = 0 then false else if i % 10 = 9 then true else b.getLsbD (i % 10 - 1) := by
  simp only [lineBit, h]

theorem lt_frameBits_of_byte {bs : List Byte} {i : Nat} {b : Byte} (h : bs[i / 10]? = some b) : i < frameBits bs := by
  obtain ⟨hlt, -⟩ := List.getElem?_eq_some_iff.1 h
  unfold frameBits
  omega

section
variable {f : Flight} {bt bit : Nat} {l : Time} {level : Bool}

theorem Flight.compare_of_differs (hbt : 1 ≤ bt) {b : Byte} (hnone : f.mismatch = none)
    (hmiddle : (l - f.startL).toNat = bit * bt + bt / 2) (hbyte : f.frame.toBytes[bit / 10]? = some b)
    (hdiffers : level ≠ lineBit f.frame.toBytes bit) : f.compare bt l level = { f with mismatch := some bit } := by
  have hhalf : bt / 2 < bt := by omega
  have hbit : (l - f.startL).toNat / bt = bit := by
    rw [hmiddle, Nat.mul_comm, Nat.mul_add_div hbt, Nat.div_eq_of_lt hhalf, Nat.add_zero]
  have hrest : (l - f.startL).toNat % bt = bt / 2 := by
    rw [hmiddle, Nat.mul_comm, Nat.mul_add_mod, Nat.mod_eq_of_lt hhalf]
  unfold Flight.compare
  dsimp only
  rw [hbit, if_pos ⟨hnone, hrest, lt_frameBits_of_byte hbyte, hdiffers.symm⟩]

theorem Flight.compare_of_same
    (h : ∀ bit b, (l - f.startL).toNat = bit * bt + bt / 2 → f.frame.toBytes[bit / 10]? = some b →
      level = lineBit f.frame.toBytes bit) : f.compare bt l level = f := by
  refine if_neg ?_
  rintro ⟨-, hrest, hlt, hdiffers⟩
  have hbyte : (l - f.startL).toNat / bt / 10 < f.frame.toBytes.length := by
    unfold frameBits at hlt
    omega
  refine hdiffers (h _ _ ?_ (List.getElem?_eq_getElem hbyte)).symm
  rw [← hrest, Nat.mul_comm]
  exact (Nat.div_add_mod _ _).symm

end

theorem Line.receiver_failTransmitter (n : Line) : n.failTransmitter.receiver = n.receiver := by
  unfold Line.failTransmitter
  split <;> rfl

theorem Line.failAttempt_zero (n : Line) :
    n.failAttempt 0 =
      { n.failTransmitter with
        lineState := .idle, flight := none, skipFrameEnd := false
        receiver := ⟨n.receiver.phase, [], false, 0, 0⟩ } := by
  rw [← n.receiver_failTransmitter]
  rfl

theorem Line.failAttempt_of_pos (n : Line) {bit : Nat} (h : 0 < bit) :
    n.failAttempt bit = { n.failTransmitter with lineState := .receiving, flight := none, skipFrameEnd := true } :=
  if_neg (Nat.ne_of_gt h)

theorem exec_failedAttempt_of_mismatch {f : Flight} {bit : Nat} (hflight : s.line.flight = some f)
    (hmismatch : f.mismatch = some bit) :
    exec (.failedAttempt bit) s =
      .next { s with line := s.line.failAttempt bit, counters := s.counters.advance .attemptsFailed } := by
  have hbit : s.line.flight.bind (·.mismatch) = some bit := by rw [hflight, Option.bind_some, hmismatch]
  show execFailedAttempt bit s = _
  rw [execFailedAttempt, if_pos hbit, State.count_of_not_loss _ rfl]

/-- Settles O33: the attempt's outcome by the failures before it and the bit, and the comparison bit by bit. -/
theorem failedAttemptBacksOff : Obligations.FailedAttemptBacksOff := by
  refine ⟨fun s bit hnot => if_neg fun hbit => ?_, fun s f bit hflight hmismatch => ?_, fun f bt l level hbt => ⟨?_, ?_⟩⟩
  · obtain ⟨f, hflight, hmismatch⟩ := Option.bind_eq_some_iff.1 hbit
    exact hnot f hflight hmismatch
  · refine ⟨s.line.failTransmitter, fun hfew => if_pos (Nat.succ_lt_succ hfew),
      fun hmany => if_neg (Nat.not_lt.2 (Nat.succ_le_succ hmany)), fun hzero => ?_, fun hpos => ?_⟩
    · rw [exec_failedAttempt_of_mismatch hflight hmismatch, hzero, Line.failAttempt_zero]
    · rw [exec_failedAttempt_of_mismatch hflight hmismatch, Line.failAttempt_of_pos _ hpos]
  · intro bit b hnone hmiddle hbyte hdiffers
    rw [← lineBit_of_byte hbyte] at hdiffers
    exact Flight.compare_of_differs hbt hnone hmiddle hbyte hdiffers
  · rintro (hmismatch | hsame)
    · exact (compare_keeps f bt l level).2 hmismatch
    · refine Flight.compare_of_same fun bit b hmiddle hbyte => ?_
      rw [lineBit_of_byte hbyte]
      exact hsame bit b hmiddle hbyte

end Sys2Proof.Machine
end

section
/-! PROOFS. The station clock at an agreement point: the midpoint, the correction, and the clock states (R44 to R50). -/

namespace Sys2Proof.Machine

variable {s t u : State}

/-! ### The midpoint (R45, R46) -/

theorem State.usableSample_eq_some {i : Station} {m : Sample} :
    s.usableSample i = some m ↔
      i ≠ s.own ∧ (s.entry i).state = .live ∧ (s.entry i).sample = some m ∧
        (s.l - m.time).toNat < 2 * (1000 * s.setup.agreementPeriod) := by
  unfold State.usableSample
  split
  · next hpeer =>
    split
    · next q hq =>
      rw [Option.ite_none_right_eq_some, hq]
      constructor
      · rintro ⟨hage, ⟨⟩⟩
        exact ⟨hpeer.1, hpeer.2, rfl, hage⟩
      · rintro ⟨-, -, ⟨⟩, hage⟩
        exact ⟨hage, rfl⟩
    · next hnone => simp [hnone]
  · next hpeer => exact iff_of_false nofun fun ⟨hother, hlive, _⟩ => hpeer ⟨hother, hlive⟩

theorem keptSamples_of_agreed {ms : List Sample} (h : ∃ m ∈ ms, m.agreed = true) :
    keptSamples ms = ms.filter fun m => m.agreed := if_pos (List.any_eq_true.2 h)

theorem keptSamples_of_none {ms : List Sample} (h : ∀ m ∈ ms, m.agreed = false) : keptSamples ms = ms :=
  if_neg (by simpa using h)

theorem insertSorted_eq (x : Int) (vs : List Int) : insertSorted x vs = vs.orderedInsert (· ≤ ·) x := by
  induction vs with
  | nil => rfl
  | cons y ys ih => rw [insertSorted, List.orderedInsert_cons, ih]

theorem sortValues_eq (vs : List Int) : sortValues vs = vs.insertionSort (· ≤ ·) := by
  induction vs with
  | nil => rfl
  | cons v vs ih => rw [sortValues, List.insertionSort_cons, insertSorted_eq, ih]

/-- R46 step 1: any order of the values sorts to the same list. -/
theorem sortValues_of_perm {vs w : List Int} (h : vs.Perm w) (hw : w.Pairwise (· ≤ ·)) : sortValues vs = w := by
  rw [sortValues_eq]
  exact ((List.perm_insertionSort _ vs).trans h).eq_of_pairwise' (List.pairwise_insertionSort _ vs) hw

theorem midpoint_of_trimmed {vs w : List Int} {lo hi : Int} (h : trimValues (sortValues vs) = w)
    (hlo : w.head? = some lo) (hhi : w.getLast? = some hi) : midpoint vs = some (Int.tdiv (lo + hi) 2) := by
  simp only [midpoint, h, hlo, hhi]

theorem trimValues_of_few {w : List Int} (h : w.length ≤ 3) : trimValues w = w := if_neg (by omega)

theorem trimValues_of_many {w : List Int} (h : 4 ≤ w.length) : trimValues w = w.tail.dropLast := if_pos h

/-- Settles O37: the definitions read out, and sorting by uniqueness of the sorted order. -/
theorem midpointOfUsableSamples : Obligations.MidpointOfUsableSamples := by
  refine ⟨fun s => ⟨rfl, rfl, fun i m => State.usableSample_eq_some, fun ms => ⟨keptSamples_of_agreed, keptSamples_of_none⟩,
    fun m => ⟨fun h => if_pos h, fun h => if_neg (by rw [h]; nofun)⟩⟩, rfl, fun vs w hperm hsorted hne lo hi => ?_⟩
  have hsort := sortValues_of_perm hperm hsorted
  refine ⟨fun hfew hlo hhi => ?_, fun hmany hlo hhi => ?_⟩
  · refine midpoint_of_trimmed (w := w) (by rw [hsort, trimValues_of_few hfew]) ?_ ?_
    · rw [List.head?_eq_getElem?, hlo]
    · rw [List.getLast?_eq_getElem?, hhi]
  · refine midpoint_of_trimmed (w := w.tail.dropLast) (by rw [hsort, trimValues_of_many hmany]) ?_ ?_
    · rw [List.head?_eq_getElem?, List.getElem?_dropLast, List.length_tail, if_pos (by omega), List.getElem?_tail, hlo]
    · have hlast : w.length - 1 - 1 - 1 + 1 = w.length - 2 := by omega
      rw [List.getLast?_eq_getElem?, List.getElem?_dropLast, List.length_dropLast, List.length_tail, if_pos (by omega),
        List.getElem?_tail, hlast, hhi]

/-! ### Clock states (R49, R50) -/

theorem State.peerLive_iff : s.peerLive = true ↔ ∃ i : Station, i ≠ s.own ∧ (s.entry i).state = .live := by
  simp [State.peerLive]

/-- Settles O38: the kinds of point, then Table 3-1 by state and kind. -/
theorem clockStateTable : Obligations.ClockStateTable := by
  refine ⟨fun s => ⟨fun m hm => ⟨fun hgood => ?_, fun hbad => ?_⟩, fun hnone => ⟨fun hpeer => ?_, fun halone => ?_⟩⟩,
    fun c m bound => ⟨fun m => rfl, fun k hk => ⟨fun hfree => ?_, fun hagreed hfar => ?_, fun hagreed hnear => ?_⟩,
      fun hconverging => ⟨fun hthird => ?_, fun hfew => ?_, ?_⟩, fun hstate => ⟨fun hthird => ?_, fun hfew => ?_⟩,
      fun hagreed => ?_⟩⟩
  · simp only [State.pointKind, hm, if_pos hgood]
  · simp only [State.pointKind, hm, if_neg (Nat.not_le.2 hbad)]
  · simp only [State.pointKind, hnone, if_pos (State.peerLive_iff.2 hpeer)]
  · have hnot : ¬s.peerLive = true := fun h =>
      let ⟨i, hother, hlive⟩ := State.peerLive_iff.1 h
      halone i hother hlive
    simp only [State.pointKind, hnone, if_neg hnot]
  · obtain rfl | rfl := hk <;> simp only [Clock.advanceState, hfree]
  · obtain rfl | rfl := hk <;> simp only [Clock.advanceState, hagreed, Option.getD_some, if_pos hfar]
  · obtain rfl | rfl := hk <;> simp only [Clock.advanceState, hagreed, Option.getD_some, if_neg (Nat.not_lt.2 hnear)]
  · simp only [Clock.advanceState, hconverging, if_pos (Nat.succ_le_succ hthird)]
  · simp only [Clock.advanceState, hconverging, if_neg (Nat.not_le.2 (Nat.succ_lt_succ hfew))]
  · simp only [Clock.advanceState, hconverging]
  · obtain h | h := hstate <;> simp only [Clock.advanceState, h, if_pos (Nat.succ_le_succ hthird)]
  · obtain h | h := hstate <;> simp only [Clock.advanceState, h, if_neg (Nat.not_le.2 (Nat.succ_lt_succ hfew))]
  · simp only [Clock.advanceState, hagreed]

/-- The state after a point and both counts come of the state and the counts before it, whatever the correction. -/
theorem Clock.advanceState_congr {c d : Clock} (kind : PointKind) (m : Option Int) (bound : Nat)
    (hstate : c.state = d.state) (hgood : c.goodPoints = d.goodPoints) (halone : c.alonePoints = d.alonePoints) :
    (c.advanceState kind m bound).state = (d.advanceState kind m bound).state ∧
      (c.advanceState kind m bound).goodPoints = (d.advanceState kind m bound).goodPoints ∧
      (c.advanceState kind m bound).alonePoints = (d.advanceState kind m bound).alonePoints := by
  obtain ⟨l, st, debt, state, good, alone⟩ := c
  subst hstate hgood halone
  unfold Clock.advanceState
  dsimp only
  split
  all_goals try split
  all_goals exact ⟨rfl, rfl, rfl⟩

/-! ### Corrections (R47, R48) -/

section
variable (c : Clock) {limit : Nat} {m : Int}

theorem clampStep_of_pos (hm : 0 < m) : clampStep limit m = min m limit := by
  unfold clampStep
  omega

theorem clampStep_of_neg (hm : m < 0) : clampStep limit m = -(min (-m) limit) := by
  unfold clampStep
  omega

theorem clampStep_zero : clampStep limit 0 = 0 := by
  unfold clampStep
  omega

theorem Clock.stepOrDebt_of_pos (hm : 0 < m) (hlimit : 0 < limit) :
    c.stepOrDebt limit (some m) =
      { c with
        st := c.st + BitVec.ofInt 48 (min m limit)
        lastM := m, lastDecision := min m limit, lastDecisionL := c.l } := by
  have hclamp : 0 < min m (limit : Int) := by omega
  simp only [Clock.stepOrDebt, clampStep_of_pos hm, if_pos hclamp]

theorem Clock.stepOrDebt_of_neg (hm : m < 0) (hlimit : 0 < limit) :
    c.stepOrDebt limit (some m) =
      { c with
        debt := c.debt + c.debtRise limit m
        lastM := m, lastDecision := -(c.debtRise limit m : Int), lastDecisionL := c.l } := by
  have hclamp : -(min (-m) (limit : Int)) < 0 := by omega
  have hnot : ¬0 < -(min (-m) (limit : Int)) := by omega
  simp only [Clock.stepOrDebt, clampStep_of_neg hm, if_neg hnot, if_pos hclamp]

theorem Clock.stepOrDebt_zero :
    c.stepOrDebt limit (some 0) = { c with lastM := 0, lastDecision := 0, lastDecisionL := c.l } := by
  simp [Clock.stepOrDebt, clampStep_zero]

theorem Clock.debt_add_debtRise (hm : m < 0) (hdebt : c.debt ≤ 4 * limit) :
    ((c.debt + c.debtRise limit m : Nat) : Int) = min (c.debt + min (-m) limit) (4 * limit) := by
  rw [Clock.debtRise, clampStep_of_neg hm]
  omega

/-- A correction leaves L, the state, its counts and the timer of the points alone, and its decision is of this L. -/
theorem Clock.jump_keeps (m : Option Int) :
    { c.jump m with st := c.st, lastM := c.lastM, lastDecision := c.lastDecision } = { c with lastDecisionL := c.l } := by
  cases m <;> rfl

theorem Clock.stepOrDebt_keeps (limit : Nat) (m : Option Int) :
    { c.stepOrDebt limit m with st := c.st, debt := c.debt, lastM := c.lastM, lastDecision := c.lastDecision } =
      { c with lastDecisionL := c.l } := by
  unfold Clock.stepOrDebt
  split
  · rfl
  · split
    · rfl
    · split <;> rfl

end

theorem State.corrected_keeps (s : State) :
    { s.corrected with
      st := s.clock.st, debt := s.clock.debt, lastM := s.clock.lastM, lastDecision := s.clock.lastDecision } =
      { s.clock with lastDecisionL := s.clock.l } := by
  unfold State.corrected
  split
  · have h := congrArg (fun c : Clock => { c with debt := s.clock.debt }) (s.clock.jump_keeps s.pointMidpoint)
    exact h
  · exact Clock.stepOrDebt_keeps _ _ _

/-- R44: everything of the clock after a point that is not of its state and counts is the correction's. -/
theorem State.clockAfterPoint_eq (s : State) (p : Time) :
    s.clockAfterPoint p =
      { s.corrected with
        state := (s.clock.advanceState s.pointKind s.pointMidpoint s.setup.precisionBound).state
        goodPoints := (s.clock.advanceState s.pointKind s.pointMidpoint s.setup.precisionBound).goodPoints
        alonePoints := (s.clock.advanceState s.pointKind s.pointMidpoint s.setup.precisionBound).alonePoints
        nextPoint := some (p + millis s.setup.agreementPeriod), firstPoint := true, uncorrected := some s.st } := by
  have hkeeps := s.corrected_keeps
  have hstate : s.corrected.state = s.clock.state := (congrArg Clock.state hkeeps :)
  have hgood : s.corrected.goodPoints = s.clock.goodPoints := (congrArg Clock.goodPoints hkeeps :)
  have halone : s.corrected.alonePoints = s.clock.alonePoints := (congrArg Clock.alonePoints hkeeps :)
  obtain ⟨hstate, hgood, halone⟩ :=
    Clock.advanceState_congr s.pointKind s.pointMidpoint s.setup.precisionBound hstate hgood halone
  rw [State.clockAfterPoint, Clock.advanceState_eq, hstate, hgood, halone]

theorem exec_agreementPoint_of_reached {p : Time} (hline : s.mode.onLine = true) (hpoint : s.clock.nextPoint = some p)
    (hreached : (s.l - p).toNat < 2 ^ 47) : exec .agreementPoint s = .next (s.takePoint p).tryActive.settle := by
  simp only [exec, execAgreementPoint, hpoint, if_pos (And.intro hline ((reached_iff _ _).2 hreached))]

/-- Settles O36: the clock of `clockAfterPoint_eq`, with the correction by the mode and the midpoint. -/
theorem agreementPointCorrects : Obligations.AgreementPointCorrects := by
  intro s p hmode hpoint hreached
  have hkeeps := s.corrected_keeps
  have hclock : (s.takePoint p).clock = s.clockAfterPoint p := rfl
  refine ⟨s.takePoint p, exec_agreementPoint_of_reached ((Mode.onLine_iff _).2 hmode) hpoint hreached, ?_, ?_⟩
  · have hchanged (a b : ClockState) : (a != b) = decide (a ≠ b) := by rw [decide_not, ← beq_eq_decide, bne]
    rw [← hchanged]
    rfl
  rw [hclock, State.clockAfterPoint_eq]
  refine ⟨(congrArg Clock.l hkeeps :), rfl, rfl, ⟨_, rfl, rfl, rfl, rfl⟩, rfl, (congrArg Clock.lastDecisionL hkeeps :),
    fun hnone => ?_, fun m hm => ?_⟩
  · have hcorrected : s.corrected = { s.clock with lastDecision := 0, lastDecisionL := s.clock.l } := by
      unfold State.corrected
      rw [hnone]
      split <;> rfl
    rw [hcorrected]
    exact ⟨rfl, rfl, rfl, rfl⟩
  · refine ⟨?_, fun hlistening => ?_, fun hother => ⟨fun hpos hlimit => ?_, fun hneg hlimit hdebt => ?_, fun hzero => ?_⟩⟩
    · unfold State.corrected
      rw [hm]
      split
      · rfl
      · unfold Clock.stepOrDebt
        dsimp only
        split
        · rfl
        · split <;> rfl
    all_goals unfold State.corrected
    · rw [if_pos hlistening, hm]
      exact ⟨rfl, rfl, rfl⟩
    · rw [if_neg hother, hm, Clock.stepOrDebt_of_pos _ hpos hlimit]
      exact ⟨rfl, rfl, rfl⟩
    · have hdebt := s.clock.debt_add_debtRise hneg hdebt
      rw [if_neg hother, hm, Clock.stepOrDebt_of_neg _ hneg hlimit]
      exact ⟨rfl, hdebt, by dsimp only; omega⟩
    · rw [if_neg hother, hm, hzero, Clock.stepOrDebt_zero]
      exact ⟨rfl, rfl, rfl⟩

end Sys2Proof.Machine
end

section
/-! PROOFS. The roster: what a frame makes of the sender's entry, the silence and expel expiries, and the holes that
closing gaps makes (R55 to R64, R108 to R111). -/

namespace Sys2Proof.Machine

variable {s t u : State}

/-! ### Writes of one entry after another -/

theorem State.setEntry_setEntry (s : State) (i : Station) (e e' : RosterEntry) :
    (s.setEntry i e).setEntry i e' = s.setEntry i e' := by
  simp [State.setEntry]

theorem State.setSeqEntry_setSeqEntry (s : State) (i : Station) (e e' : Option SeqEntry) :
    (s.setSeqEntry i e).setSeqEntry i e' = s.setSeqEntry i e' := by
  simp [State.setSeqEntry]

theorem State.setEntry_setSeqEntry (s : State) (i : Station) (e : RosterEntry) (q : Option SeqEntry) :
    (s.setSeqEntry i q).setEntry i e = (s.setEntry i e).setSeqEntry i q := rfl

/-! ### Closing the gaps of a station (R108, R109) -/

section
variable (s : State) (i : Station)

theorem gaps_tellRestart (inc : Byte) :
    (s.tellRestart i inc).sequencer.gaps = s.sequencer.gaps.filter fun g => g.station != i :=
  (congrArg Sequencer.gaps (tellRestart_onlyJournal s i inc).sequencer :)

theorem gaps_tellGone : (s.tellGone i).sequencer.gaps = s.sequencer.gaps.filter fun g => g.station != i :=
  (congrArg Sequencer.gaps (tellGone_onlyJournal s i).sequencer :)

theorem roster_tellGone : (s.tellGone i).roster = s.roster := (tellGone_onlyJournal s i).roster

end

/-- Settles O48: a hole is counted and arrives; a closing makes one of each gap of the station. -/
theorem holesReachThePool : Obligations.HolesReachThePool := by
  intro s
  refine ⟨fun h => ⟨_, rfl, ?_, makeHole_onlyJournal s h⟩, fun i =>
    ⟨fun inc => ⟨rfl, gaps_tellRestart s i inc⟩, rfl, gaps_tellGone s i⟩⟩
  rw [State.makeHole, State.count_of_loss _ rfl]
  rfl

/-! ### What taking a frame leaves of other stations -/

/-- `t` is `s` in the entries, the sequence entries and the gaps of every station but `i`. -/
def OthersKept (i : Station) (s t : State) : Prop :=
  (∀ j, j ≠ i → t.entry j = s.entry j ∧ t.seqEntry j = s.seqEntry j) ∧
    (t.sequencer.gaps.filter fun g => g.station != i) = s.sequencer.gaps.filter fun g => g.station != i

theorem OthersKept.trans {i : Station} (h : OthersKept i s t) (k : OthersKept i t u) : OthersKept i s u := by
  refine ⟨fun j hj => ?_, k.2.trans h.2⟩
  obtain ⟨hentry, hseq⟩ := h.1 j hj
  obtain ⟨kentry, kseq⟩ := k.1 j hj
  exact ⟨kentry.trans hentry, kseq.trans hseq⟩

section
variable (s : State) (i : Station)

theorem setEntry_othersKept (e : RosterEntry) : OthersKept i s (s.setEntry i e) :=
  ⟨fun j hj => ⟨(State.entry_setEntry s i j e).trans (if_neg hj), rfl⟩, rfl⟩

theorem setSeqEntry_othersKept (e : Option SeqEntry) : OthersKept i s (s.setSeqEntry i e) :=
  ⟨fun j hj => ⟨rfl, (State.seqEntry_setSeqEntry s i j e).trans (if_neg hj)⟩, rfl⟩

theorem tellGone_othersKept : OthersKept i s (s.tellGone i) := by
  refine ⟨fun j hj => ⟨(tellGone_onlyRecovery s i).entry j, (seqEntry_tellGone s i j).trans (if_neg hj)⟩, ?_⟩
  rw [gaps_tellGone, List.filter_filter]
  simp

theorem tellRestart_othersKept (inc : Byte) : OthersKept i s (s.tellRestart i inc) := by
  refine ⟨fun j hj => ⟨(tellRestart_onlyRecovery s i inc).entry j, (seqEntry_tellRestart s i j inc).trans (if_neg hj)⟩, ?_⟩
  rw [gaps_tellRestart, List.filter_filter]
  simp

end

/-! ### Taking a frame (R55 to R62) -/

section
variable {f : Frame} {stamp stampL : Time}

theorem rosterTake_of_absent (h : (s.entry f.sender).state = .absent) (hstays : f.body.isLeaving = false) :
    s.rosterTake f stamp stampL =
      (s.setEntry f.sender
        ⟨.joining, f.incarnation, stamp, s.l, some (s.offsetSample f.sendStamp stamp stampL f.clockAgreed),
          true⟩).setSeqEntry f.sender (some ⟨f.incarnation, none, 0⟩) := by
  rw [State.rosterTake, if_pos h, State.takeFromAbsent, hstays]
  rfl

/-- R62: a LEAVING BEACON of a station that is ABSENT leaves it so. -/
theorem rosterTake_of_absent_leaving (h : (s.entry f.sender).state = .absent) (hleaves : f.body.isLeaving = true) :
    s.rosterTake f stamp stampL =
      s.setEntry f.sender
        ⟨.absent, f.incarnation, stamp, s.l, some (s.offsetSample f.sendStamp stamp stampL f.clockAgreed),
          (s.entry f.sender).mark⟩ := by
  rw [State.rosterTake, if_pos h, State.takeFromAbsent, hleaves, ← h]
  rfl

theorem takeSameIncarnation_eq (h : (s.entry f.sender).incarnation = f.incarnation) :
    s.takeSameIncarnation f stamp stampL =
      s.setEntry f.sender
        ⟨.live, f.incarnation, stamp, s.l, some (s.offsetSample f.sendStamp stamp stampL f.clockAgreed),
          (s.entry f.sender).mark || decide ((s.entry f.sender).state ≠ .live)⟩ := by
  have hne (a b : Membership) : (a != b) = decide (a ≠ b) := by rw [decide_not, ← beq_eq_decide, bne]
  rw [State.takeSameIncarnation, hne, ← h]
  rfl

theorem takeNewIncarnation_eq :
    s.takeNewIncarnation f stamp stampL =
      (s.tellRestart f.sender f.incarnation).setEntry f.sender
        ⟨.joining, f.incarnation, stamp, s.l, some (s.offsetSample f.sendStamp stamp stampL f.clockAgreed), true⟩ := by
  rw [State.takeNewIncarnation, State.tellRestart, State.tellFirstFrame, State.setEntry_setSeqEntry,
    State.setSeqEntry_setSeqEntry]
  rfl

theorem rosterTake_of_present (h : (s.entry f.sender).state ≠ .absent) :
    s.rosterTake f stamp stampL =
      if f.body.isLeaving then
        State.peerLeaves
          (if (s.entry f.sender).incarnation = f.incarnation then s.takeSameIncarnation f stamp stampL
            else s.takeNewIncarnation f stamp stampL) f.sender
      else if (s.entry f.sender).incarnation = f.incarnation then s.takeSameIncarnation f stamp stampL
      else s.takeNewIncarnation f stamp stampL := if_neg h

/-- R62: the entry of a station that leaves, right after an update of it. -/
theorem peerLeaves_setEntry (i : Station) (e : RosterEntry) :
    (s.setEntry i e).peerLeaves i = (s.setEntry i { e with state := .absent, mark := true }).tellGone i := by
  rw [State.peerLeaves, State.entry_setEntry_self, State.setEntry_setEntry]

theorem rosterTake_othersKept : OthersKept f.sender s (s.rosterTake f stamp stampL) := by
  have hpresent (t : State) (ht : OthersKept f.sender s t) : OthersKept f.sender s (t.peerLeaves f.sender) :=
    (ht.trans (setEntry_othersKept t _ _)).trans (tellGone_othersKept _ _)
  have htaken : OthersKept f.sender s
      (if (s.entry f.sender).incarnation = f.incarnation then s.takeSameIncarnation f stamp stampL
        else s.takeNewIncarnation f stamp stampL) := by
    split
    · exact setEntry_othersKept s _ _
    · rw [takeNewIncarnation_eq]
      exact (tellRestart_othersKept s _ _).trans (setEntry_othersKept _ _ _)
  by_cases habsent : (s.entry f.sender).state = .absent
  · cases hleaves : f.body.isLeaving with
    | false =>
      rw [rosterTake_of_absent habsent hleaves]
      exact (setEntry_othersKept s _ _).trans (setSeqEntry_othersKept _ _ _)
    | true =>
      rw [rosterTake_of_absent_leaving habsent hleaves]
      exact setEntry_othersKept s _ _
  · rw [rosterTake_of_present habsent]
    split
    · exact hpresent _ htaken
    · exact htaken

end

theorem gap_station_ne_of_filter {gs : List Gap} {i : Station} {g : Gap} (h : g ∈ gs.filter fun g => g.station != i) :
    g.station ≠ i := by
  simpa using (List.mem_filter.1 h).2

/-- Settles O39: the equations of Table 4-2, and what all of them leave alone. -/
theorem rosterTakesFrame : Obligations.RosterTakesFrame := by
  intro s f stamp stampL i smp hi hsmp
  subst hi hsmp
  obtain ⟨hothers, hgaps⟩ := rosterTake_othersKept (s := s) (f := f) (stamp := stamp) (stampL := stampL)
  refine ⟨_, rfl, hothers, hgaps, fun habsent => ⟨fun hstays => rosterTake_of_absent habsent hstays,
    fun hleaves => rosterTake_of_absent_leaving habsent hleaves⟩, fun hpresent hsame => ⟨fun hstays => ?_, fun hleaves => ?_⟩,
    fun hpresent hnew => ⟨fun hstays => ?_, fun hleaves => ?_⟩, fun hpresent hleaves => ?_⟩
  all_goals rw [rosterTake_of_present hpresent]
  · rw [hstays, if_pos hsame, takeSameIncarnation_eq hsame]
    rfl
  · rw [hleaves, if_pos hsame, takeSameIncarnation_eq hsame, peerLeaves_setEntry]
    rfl
  · rw [hstays, if_neg hnew, takeNewIncarnation_eq]
    refine ⟨rfl, ?_, fun g hg => gap_station_ne_of_filter (gaps_tellRestart s f.sender f.incarnation ▸ hg)⟩
    exact (seqEntry_tellRestart s f.sender f.sender f.incarnation).trans (if_pos rfl)
  · rw [hleaves, if_neg hnew, takeNewIncarnation_eq, peerLeaves_setEntry]
    rfl
  · rw [if_pos hleaves, State.peerLeaves]
    refine ⟨(seqEntry_tellGone _ _ _).trans (if_pos rfl), fun g hg => ?_⟩
    rw [gaps_tellGone] at hg
    exact gap_station_ne_of_filter hg

/-! ### The silence and expel expiries (R58, R60) -/

theorem exec_silenceTimerExpiry_of_due {i : Station} (hline : s.mode.onLine = true) (hpeer : i ≠ s.own)
    (hdue : (s.l - ((s.entry i).heardAt + millis s.setup.silenceTimeout)).toNat < 2 ^ 47) :
    exec (.silenceTimerExpiry i) s = .next (s.takeSilence i) :=
  if_pos ⟨hline, hpeer, (reached_iff _ _).2 hdue⟩

theorem exec_expelTimerExpiry_of_due {i : Station} (hline : s.mode.onLine = true) (hpeer : i ≠ s.own)
    (hsilent : (s.entry i).state = .silent)
    (hdue : (s.l - ((s.entry i).heardAt + millis s.setup.expelTimeout)).toNat < 2 ^ 47) :
    exec (.expelTimerExpiry i) s = .next (s.expel i).settle :=
  if_pos ⟨hline, hpeer, hsilent, (reached_iff _ _).2 hdue⟩

/-- An entry that goes ABSENT goes with its sequence entry and its gaps. -/
theorem tellGone_setEntry (s : State) (i : Station) (e : RosterEntry) :
    ((s.setEntry i e).tellGone i).roster = s.roster.set i.val e ∧ ((s.setEntry i e).tellGone i).seqEntry i = none ∧
      ((s.setEntry i e).tellGone i).sequencer.gaps = s.sequencer.gaps.filter fun g => g.station != i :=
  ⟨roster_tellGone _ i, (seqEntry_tellGone _ _ _).trans (if_pos rfl), gaps_tellGone _ i⟩

/-- Settles O40: the expiry by the entry's state. -/
theorem rosterTimerExpiries : Obligations.RosterTimerExpiries := by
  intro s i hmode hpeer
  have hline : s.mode.onLine = true := (Mode.onLine_iff _).2 hmode
  refine ⟨fun hdue => ?_, fun hsilent hdue => ?_⟩
  · rw [exec_silenceTimerExpiry_of_due hline hpeer hdue]
    refine ⟨fun hlive => ?_, fun hjoining => ⟨_, rfl, ?_, tellGone_setEntry s i _⟩, fun hidle => ?_⟩
    · simp only [State.takeSilence, hlive, State.fallSilent]
    · simp only [State.takeSilence, hjoining, State.joinLapse]
    · obtain h | h := hidle <;> simp only [State.takeSilence, h]
  · exact ⟨_, rfl, exec_expelTimerExpiry_of_due hline hpeer hsilent hdue, tellGone_setEntry s i _⟩

end Sys2Proof.Machine
end

section
/-! PROOFS. Edges, the debounce, the timers and repeat jobs (R72 to R74, R78, R85, R87, R88, R102, R105, R156). -/

namespace Sys2Proof.Machine

variable {s : State}

/-! ### Edges (R72 to R74) -/

theorem EdgeSelect.selects_iff (sel : EdgeSelect) (level : Bool) :
    sel.selects level = true ↔ sel = .both ∨ sel = .rise ∧ level = true ∨ sel = .fall ∧ level = false := by
  cases sel <;> simp [EdgeSelect.selects]

theorem getLsbD_setLevel (lv : BitVec 16) (i j : InputNo) (level : Bool) :
    (setLevel lv i level).getLsbD j.val = if j = i then level else lv.getLsbD j.val := by
  have hbit : (BitVec.ofNat 16 (2 ^ i.val)).getLsbD j.val = decide (j = i) := by
    rw [BitVec.getLsbD_ofNat, Nat.testBit_two_pow, decide_eq_true j.isLt, Bool.true_and]
    simp only [Fin.ext_iff, eq_comm]
  cases level
  · rw [setLevel, if_neg (by simp), BitVec.getLsbD_and, BitVec.getLsbD_not, hbit]
    by_cases h : j = i
    · simp [h]
    · simp [h, -BitVec.getLsbD_eq_getElem]
  · rw [setLevel, if_pos rfl, BitVec.getLsbD_or, hbit]
    by_cases h : j = i <;> simp [h, -BitVec.getLsbD_eq_getElem]

theorem exec_edge_of_no_change {i : InputNo} {level : Bool}
    (h : s.capture.sampled = false ∨ s.capture.levels.getLsbD i.val = level) : exec (.edge i level) s = .next s :=
  if_pos h

theorem exec_edge_of_change {i : InputNo} {level : Bool} (hsampled : s.capture.sampled = true)
    (hlevel : s.capture.levels.getLsbD i.val ≠ level) :
    exec (.edge i level) s = .next ((s.setInput s.capture.levels i level).takeEdge i level) :=
  if_neg (not_or.2 ⟨by simp [hsampled], hlevel⟩)

section
variable {i : InputNo} {level : Bool}

theorem State.takeEdge_of_pending (h : s.pendingEdge i ≠ none) :
    s.takeEdge i level = (s.setPendingEdge i none).settle := by
  obtain ⟨p, hp⟩ := Option.ne_none_iff_exists'.1 h
  simp only [State.takeEdge, hp]

theorem State.takeEdge_of_selected (h : s.pendingEdge i = none) (hmode : s.mode = .active)
    (hsel : (s.setup.edges[i.val]).selects level = true) :
    s.takeEdge i level = (s.startPending i level).settle := by
  simp only [State.takeEdge, h, hmode, hsel, and_self, if_true]

theorem State.takeEdge_of_not_selected (h : s.pendingEdge i = none)
    (hno : s.mode ≠ .active ∨ (s.setup.edges[i.val]).selects level = false) : s.takeEdge i level = s := by
  have hneg : ¬(s.mode = .active ∧ (s.setup.edges[i.val]).selects level = true) := by
    rcases hno with hmode | hsel
    · simp [hmode]
    · simp [hsel]
  simp only [State.takeEdge, h, if_neg hneg]

theorem State.setPendingEdge_setPendingEdge (s : State) (i : InputNo) (p q : Option PendingEdge) :
    (s.setPendingEdge i p).setPendingEdge i q = s.setPendingEdge i q := by
  simp [State.setPendingEdge]

/-- R73, R74: with a debounce of 0 the pending state is over at once, and it leaves no trace. -/
theorem State.confirmCapture_setPendingEdge (s : State) (i : InputNo) (p : PendingEdge) :
    (s.setPendingEdge i (some p)).confirmCapture i p = s.confirmCapture i p := by
  rw [State.confirmCapture, State.confirmCapture, State.setPendingEdge_setPendingEdge]

end

theorem State.newPending_eq (s : State) (level : Bool) :
    s.newPending level = ⟨s.st, s.l, level, decide (s.clock.state = .agreed)⟩ := by
  rw [State.newPending, State.clockAgreed_eq]

theorem State.startPending_of_debounce (h : 0 < s.setup.debounce) (i : InputNo) (level : Bool) :
    s.startPending i level =
      s.setPendingEdge i (some ⟨s.st, s.l, level, decide (s.clock.state = .agreed)⟩) := by
  rw [State.startPending, if_neg (Nat.ne_of_gt h), State.newPending_eq]

theorem State.startPending_of_no_debounce (h : s.setup.debounce = 0) (i : InputNo) (level : Bool) :
    s.startPending i level = s.confirmCapture i ⟨s.st, s.l, level, decide (s.clock.state = .agreed)⟩ := by
  rw [State.startPending, if_pos h, State.confirmCapture_setPendingEdge, State.newPending_eq]

/-- Settles O41: without a change nothing; else the level, and what the pending state and the mode make of it. -/
theorem edgeStartsOrCancels : Obligations.EdgeStartsOrCancels := by
  refine ⟨EdgeSelect.selects_iff, fun s i level => ⟨exec_edge_of_no_change, fun hsampled hlevel => ?_⟩⟩
  have hexec := exec_edge_of_change hsampled hlevel
  refine ⟨setLevel s.capture.levels i level, s.setInput s.capture.levels i level, ?_, fun j hj => ?_, rfl,
    fun hpending => ?_, fun hnone hmode hsel hdebounce => ?_, fun hnone hmode hsel hdebounce => ?_, fun hnone hno => ?_⟩
  · rw [getLsbD_setLevel, if_pos rfl]
  · rw [getLsbD_setLevel, if_neg hj]
  · rw [hexec, State.takeEdge_of_pending (s := s.setInput ..) hpending]
  · rw [hexec, State.takeEdge_of_selected (s := s.setInput ..) hnone hmode hsel,
      State.startPending_of_debounce (s := s.setInput ..) hdebounce]
    rfl
  · rw [hexec, State.takeEdge_of_selected (s := s.setInput ..) hnone hmode hsel,
      State.startPending_of_no_debounce (s := s.setInput ..) hdebounce]
    rfl
  · rw [hexec, State.takeEdge_of_not_selected (s := s.setInput ..) hnone hno]

/-! ### The debounce (R74, R77, R78) -/

theorem exec_debounceExpiry_of_reached {i : InputNo} {p : PendingEdge} (hmode : s.mode = .active)
    (hp : s.pendingEdge i = some p) (hreached : (s.l - (p.edgeL + micros s.setup.debounce)).toNat < 2 ^ 47) :
    exec (.debounceExpiry i) s = .next (s.confirmCapture i p).settle := by
  have hr : reached s.l (p.edgeL + micros s.setup.debounce) = true := (reached_iff _ _).2 hreached
  change execDebounceExpiry i s = _
  simp only [execDebounceExpiry, hp, hmode, hr, and_self, if_true]

section
variable {i : InputNo} {p : PendingEdge}

theorem State.confirmCapture_of_full (h : 32 ≤ s.outbound.outq.length) :
    s.confirmCapture i p = (s.setPendingEdge i none).loseCapture :=
  if_pos ((State.outqFull_iff (s := s.setPendingEdge i none)).2 h)

theorem State.confirmCapture_of_room (h : s.outbound.outq.length < 32) :
    s.confirmCapture i p =
      (s.setPendingEdge i none).createOwn (inputChannel i) (if p.level then 1 else 2) p.edgeTime (!p.agreed) none :=
  if_neg (by rw [(State.outqFull_eq_false_iff (s := s.setPendingEdge i none)).2 h]; simp)

end

/-- Settles O42: with OUTQ full the capture is lost, otherwise it is a record. -/
theorem debounceConfirmsOrLoses : Obligations.DebounceConfirmsOrLoses := by
  intro s i p hmode hp hreached
  rw [exec_debounceExpiry_of_reached hmode hp hreached]
  refine ⟨fun hfull => ?_, fun hroom => ?_⟩
  · rw [State.confirmCapture_of_full hfull]
    rfl
  · rw [State.confirmCapture_of_room hroom, createOwn_eq]
    exact ⟨_, inputChannel i, _, rfl, rfl, rfl, rfl, accept_onlyJournalPath _ _⟩

/-! ### Timers (R85, R102, R105, R156) -/

theorem exec_beaconTimerExpiry_of_reached {e : Time} (he : s.outbound.beaconTimer = some e)
    (hmode : s.mode = .listening ∨ s.mode = .active ∨ s.mode = .leaving) (hreached : (s.l - e).toNat < 2 ^ 47) :
    exec .beaconTimerExpiry s =
      .next { s with outbound := { s.outbound with beaconTimer := none, beaconDue := true } } := by
  change execBeaconTimerExpiry s = _
  simp only [execBeaconTimerExpiry, he, (Mode.onLine_iff _).2 hmode, (reached_iff _ _).2 hreached, and_self, if_true]

theorem exec_idleTimerExpiry_of_reached {id : StreamId} {e : Time} (he : (s.stream id).idleTimer = some e)
    (hreached : (s.l - e).toNat < 2 ^ 47) :
    exec (.idleTimerExpiry id) s =
      .next (s.setStream id
        { s.stream id with
          timeout := (s.stream id).timeout || decide ((s.stream id).entries ≠ [])
          idleTimer := none }) := by
  have hempty : (!(s.stream id).entries.isEmpty) = decide ((s.stream id).entries ≠ []) := by
    cases (s.stream id).entries <;> rfl
  change execIdleTimerExpiry id s = _
  simp only [execIdleTimerExpiry, he, (reached_iff _ _).2 hreached, if_true, hempty]

theorem Gap.isAt_iff {g : Gap} {i : Station} {first : Seq} :
    g.isAt i first = true ↔ g.station = i ∧ g.first = first := by
  simp [Gap.isAt]

theorem Gap.not_isAt_iff {g : Gap} {i : Station} {first : Seq} :
    g.isAt i first = false ↔ ¬(g.station = i ∧ g.first = first) := by
  rw [← Gap.isAt_iff, Bool.not_eq_true]

theorem find?_of_first {α : Type} {p : α → Bool} {above below : List α} {x : α} (habove : ∀ y ∈ above, p y = false)
    (hx : p x = true) : (above ++ x :: below).find? p = some x := by
  rw [List.find?_append, List.find?_eq_none.2 fun y hy => Bool.eq_false_iff.1 (habove y hy), List.find?_cons_of_pos hx,
    Option.none_or]

section
variable {g : Gap} {above below : List Gap}

theorem exec_gapDeadline_of_reached (hgaps : s.sequencer.gaps = above ++ g :: below)
    (habove : ∀ x ∈ above, ¬(x.station = g.station ∧ x.first = g.first))
    (hmode : s.mode = .listening ∨ s.mode = .active ∨ s.mode = .leaving) (hdue : g.due = false)
    (hreached : (s.l - g.deadline).toNat < 2 ^ 47) :
    exec (.gapDeadline g.station g.first) s = .next (s.takeDeadline g).settle := by
  have hfind : s.sequencer.gaps.find? (·.isAt g.station g.first) = some g := by
    rw [hgaps]
    exact find?_of_first (fun x hx => Gap.not_isAt_iff.2 (habove x hx)) (Gap.isAt_iff.2 ⟨rfl, rfl⟩)
  change execGapDeadline g.station g.first s = _
  simp only [execGapDeadline, hfind, (Mode.onLine_iff _).2 hmode, hdue, (reached_iff _ _).2 hreached, and_self, if_true]

/-- What R101, R105 and R107 put for one gap stands at its place in the table. -/
theorem replaceFirst_isAt (hgaps : s.sequencer.gaps = above ++ g :: below)
    (habove : ∀ x ∈ above, ¬(x.station = g.station ∧ x.first = g.first)) (by' : Gap → List Gap) :
    replaceFirst (·.isAt g.station g.first) by' s.sequencer.gaps = above ++ (by' g ++ below) := by
  rw [hgaps]
  exact replaceFirst_of_mem (fun x hx => Gap.not_isAt_iff.2 (habove x hx)) (Gap.isAt_iff.2 ⟨rfl, rfl⟩)

end

/-- Settles O43: the three kinds of timer of the outbound side, the streams and the gap table. -/
theorem timersExpire : Obligations.TimersExpire := by
  intro s
  refine ⟨fun e he hmode hreached => exec_beaconTimerExpiry_of_reached he hmode hreached,
    fun id e he hreached => exec_idleTimerExpiry_of_reached he hreached,
    fun g above below hgaps habove hmode hdue hreached => ?_⟩
  rw [exec_gapDeadline_of_reached hgaps habove hmode hdue hreached]
  refine ⟨fun htries => ?_, fun htries => ?_⟩
  · rw [State.takeDeadline, if_pos htries, replaceFirst_isAt hgaps habove]
    rfl
  · rw [State.takeDeadline, if_neg (Nat.not_lt.2 htries), replaceFirst_isAt hgaps habove]
    rfl

/-! ### Repeat jobs (R79, R87, R88) -/

theorem outboundTake_of_other {f : Frame}
    (h : ∀ inc ranges, f.body = .request s.own inc ranges → inc ≠ s.setup.incarnation) : s.outboundTake f = s := by
  rw [State.outboundTake]
  split
  · next target inc ranges hbody =>
    exact if_neg fun ⟨htarget, hinc⟩ => h inc ranges (htarget ▸ hbody) hinc
  all_goals rfl

theorem outboundTake_of_request {f : Frame} {ranges : List SeqRange}
    (h : f.body = .request s.own s.setup.incarnation ranges) : s.outboundTake f = ranges.foldl State.takeRange s := by
  simp only [State.outboundTake, h, and_self, if_true]

theorem Outbound.inSentRun_iff (o : Outbound) (q : Seq) :
    o.inSentRun q = true ↔
      ∃ k : Nat, 1 ≤ k ∧ k ≤ o.sentCount ∧ q = o.nextSeq - BitVec.ofNat 16 o.outq.length - BitVec.ofNat 16 k := by
  rw [Outbound.inSentRun, decide_eq_true_iff, Outbound.firstUnsent]
  generalize o.nextSeq - BitVec.ofNat 16 o.outq.length = unsent
  refine ⟨fun h => ⟨(unsent - 1 - q).toNat + 1, by omega, h, ?_⟩, fun ⟨k, hpos, hk, hq⟩ => ?_⟩
  · apply BitVec.eq_of_toNat_eq
    bv_omega
  · have hmod : (unsent - 1 - q).toNat ≤ k - 1 := by
      rw [hq]
      bv_omega
    omega

section
variable {o : Outbound} {r c : SeqRange}

theorem filter_range_between {n lo len : Nat} {p : Nat → Bool} (hfits : lo + len ≤ n)
    (h : ∀ k, k < n → (p k = true ↔ lo ≤ k ∧ k < lo + len)) : (List.range n).filter p = List.range' lo len := by
  refine List.Pairwise.eq_of_mem_iff (List.pairwise_lt_range.filter p) List.pairwise_lt_range' fun k => ?_
  rw [List.mem_filter, List.mem_range, List.mem_range'_1]
  refine ⟨fun ⟨hk, hp⟩ => (h k hk).1 hp, fun hk => ?_⟩
  have hlt : k < n := by omega
  exact ⟨hlt, (h k hlt).2 hk⟩

theorem Outbound.cut_eq_none (h : ∀ k, k < r.count.toNat → o.inSentRun (r.first + BitVec.ofNat 16 k) = false) :
    o.cut r = none := by
  have hempty : r.numbers.filter o.inSentRun = [] := by
    refine List.filter_eq_nil_iff.2 fun q hq => ?_
    obtain ⟨k, hk, rfl⟩ := List.mem_map.1 hq
    rw [h k (List.mem_range.1 hk)]
    exact Bool.false_ne_true
  simp only [Outbound.cut, hempty]

/-- R87: where the part of a range in the sent run is one run of numbers, the cut is that run. -/
theorem Outbound.cut_eq_some {lo : Nat} (hpos : 1 ≤ c.count.toNat) (hfits : lo + c.count.toNat ≤ r.count.toNat)
    (hfirst : c.first = r.first + BitVec.ofNat 16 lo)
    (h : ∀ k, k < r.count.toNat →
      (o.inSentRun (r.first + BitVec.ofNat 16 k) = true ↔ lo ≤ k ∧ k < lo + c.count.toNat)) :
    o.cut r = some c := by
  obtain ⟨n, hn⟩ : ∃ n, c.count.toNat = n + 1 := ⟨c.count.toNat - 1, by omega⟩
  have hfilter : r.numbers.filter o.inSentRun =
      c.first :: (List.range' (lo + 1) n).map fun k => r.first + BitVec.ofNat 16 k := by
    rw [SeqRange.numbers, List.filter_map, filter_range_between (p := o.inSentRun ∘ _) hfits h, hn, List.range'_succ, List.map_cons, ← hfirst]
  have hcount : BitVec.ofNat 8 (n + 1) = c.count := by rw [← hn, BitVec.ofNat_toNat, BitVec.setWidth_eq]
  simp only [Outbound.cut, hfilter, List.length_map, List.length_range', hcount]

theorem SeqRange.inside_iff {q : SeqRange} :
    c.inside q = true ↔ ∃ d : Nat, d + c.count.toNat ≤ q.count.toNat ∧ c.first = q.first + BitVec.ofNat 16 d := by
  rw [SeqRange.inside, decide_eq_true_iff]
  refine ⟨fun h => ⟨(c.first - q.first).toNat, h, ?_⟩, fun ⟨d, hd, hfirst⟩ => ?_⟩
  · rw [BitVec.ofNat_toNat, BitVec.setWidth_eq, BitVec.add_comm, BitVec.sub_add_cancel]
  have hoffset : (c.first - q.first).toNat ≤ d := by
    rw [hfirst]
    bv_omega
  omega

end

/-- Settles O44: whose REQUEST it is, the sent run, and what becomes of the part of each range in it. -/
theorem requestsBecomeJobs : Obligations.RequestsBecomeJobs := by
  intro s
  refine ⟨fun f => outboundTake_of_other, fun f ranges => outboundTake_of_request, s.outbound.inSentRun_iff,
    fun r => ⟨fun h => ?_, fun c lo hpos hfits hfirst hrun => ?_⟩⟩
  · simp only [State.takeRange, Outbound.cut_eq_none h]
  have hcut : s.takeRange r = s.addJob c := by
    simp only [State.takeRange, Outbound.cut_eq_some hpos hfits hfirst hrun]
  rw [hcut, State.addJob]
  refine ⟨fun ⟨q, hq, hinside⟩ => if_pos (List.any_eq_true.2 ⟨q, hq, SeqRange.inside_iff.2 hinside⟩), fun hnone => ?_⟩
  have houtside : ¬s.outbound.jobs.any (c.inside ·) = true := fun hany => by
    obtain ⟨q, hq, hinside⟩ := List.any_eq_true.1 hany
    obtain ⟨d, hd, hfirst⟩ := SeqRange.inside_iff.1 hinside
    exact hnone q hq d hd hfirst
  rw [if_neg houtside]
  refine ⟨fun hroom => if_pos hroom, fun hfull => ?_⟩
  rw [if_neg (Nat.not_lt.2 hfull : ¬s.outbound.jobs.length < jobCapacity), State.count_of_not_loss _ rfl]

end Sys2Proof.Machine
end

section
/-! PROOFS. The sequencer: what it makes of each kind of frame and of one record (R92 to R101). -/

namespace Sys2Proof.Machine

variable {s : State}

/-! ### A missing run, and the advance of NE (R97 to R99) -/

section
variable {i : Station} {e : SeqEntry} {first : Seq} {run : Nat}

theorem State.openRun_of_long (h : 1024 < run) :
    s.openRun i e first run = s.makeHole ⟨i, e.incarnation, first, 1024, .beyond, e.watermark⟩ := if_pos h

theorem State.openRun_of_no_room (hrun : run ≤ 1024) (h : 32 ≤ s.sequencer.gaps.length) :
    s.openRun i e first run = s.makeHole ⟨i, e.incarnation, first, run, .noRoom, e.watermark⟩ :=
  (if_neg (Nat.not_lt.2 hrun)).trans (if_pos h)

theorem State.openRun_of_room (hrun : run ≤ 1024) (h : s.sequencer.gaps.length < 32) :
    s.openRun i e first run =
      s.setGaps (insertGap ⟨i, e.incarnation, first, run, e.watermark, 0, s.l, .waiting, true⟩ s.sequencer.gaps) :=
  (if_neg (Nat.not_lt.2 hrun)).trans (if_neg (Nat.not_le.2 h))

end

theorem seqEntry_openRun (s : State) (i j : Station) (e : SeqEntry) (first : Seq) (run : Nat) :
    (s.openRun i e first run).seqEntry j = s.seqEntry j := by
  rcases openRun_onlyJournal s i e first run with h | ⟨-, h⟩
  · exact congrArg (fun q : Sequencer => q.table[j.val]) h.sequencer
  · rw [h]
    rfl

theorem seqEntry_accept (s : State) (r : Record) (j : Station) : (s.accept r).seqEntry j = s.seqEntry j :=
  congrArg (fun q : Sequencer => q.table[j.val]) (accept_onlyJournalPath s r).sequencer

theorem seqEntry_advanceNext {i : Station} {e : SeqEntry} (h : s.seqEntry i = some e) (next : Seq) :
    (s.advanceNext i next).seqEntry i = some { e with next := some next } := by
  have hclosed (t : State) (p : Gap → Bool) (reason : HoleReason) : (t.closeGaps p reason).seqEntry i = t.seqEntry i :=
    (closeGaps_onlyJournal t p reason).seqEntry i
  simp only [State.advanceNext, h]
  rw [hclosed, State.seqEntry_setSeqEntry, if_pos rfl]

/-! ### One record against NE (R95, R100, R101) -/

section
variable {r : Record} {e : SeqEntry} {ne : Seq}

theorem State.takeRecord_eq (he : s.seqEntry r.station = some e) (hne : e.next = some ne) :
    s.takeRecord r =
      if r.seq = ne then (s.advanceNext r.station (r.seq + 1)).accept r
      else if seqAbove r.seq ne then
        ((s.openRun r.station e ne (r.seq - ne).toNat).advanceNext r.station (r.seq + 1)).accept r
      else s.takeOld r := by
  simp only [State.takeRecord, he, hne]

theorem State.takeRecord_of_next (he : s.seqEntry r.station = some e) (hne : e.next = some ne) (h : r.seq = ne) :
    s.takeRecord r = (s.advanceNext r.station (ne + 1)).accept r := by
  rw [State.takeRecord_eq he hne, if_pos h, h]

theorem State.takeRecord_of_above (he : s.seqEntry r.station = some e) (hne : e.next = some ne) (hseq : r.seq ≠ ne)
    (h : (r.seq - ne).toNat < 2 ^ 15) :
    s.takeRecord r =
      ((s.openRun r.station e ne (r.seq - ne).toNat).advanceNext r.station (r.seq + 1)).accept r := by
  have hpos : 1 ≤ (r.seq - ne).toNat := by bv_omega
  rw [State.takeRecord_eq he hne, if_neg hseq, if_pos ((seqAbove_iff _ _).2 ⟨hpos, h⟩)]

theorem State.takeRecord_of_below (he : s.seqEntry r.station = some e) (hne : e.next = some ne)
    (h : 2 ^ 15 ≤ (r.seq - ne).toNat) : s.takeRecord r = s.takeOld r := by
  have hseq : r.seq ≠ ne := by bv_omega
  have habove : ¬seqAbove r.seq ne = true := fun hlt => by
    obtain ⟨-, hlt⟩ := (seqAbove_iff _ _).1 hlt
    omega
  rw [State.takeRecord_eq he hne, if_neg hseq, if_neg habove]

end

/-! ### A filler (R100, R101) -/

section
variable {g : Gap} {q : Seq}

theorem Gap.part_from_start {n : Nat} (h : 0 < n) : g.part 0 n = [{ g with count := n, tries := 0 }] := by
  rw [Gap.part_of_pos h, BitVec.add_zero]

theorem Gap.fill_only {held : Nat} (hq : q = g.first) (hcount : g.count = 1) : g.fill q held = some [] := by
  rw [Gap.fill, if_pos hq, hcount, Gap.part_zero]

theorem Gap.fill_first {held : Nat} (hq : q = g.first) (hcount : 1 < g.count) :
    g.fill q held = some [{ g with first := g.first + 1, count := g.count - 1, tries := 0 }] := by
  rw [Gap.fill, if_pos hq, Gap.part_of_pos (by omega)]
  rfl

theorem Gap.fill_last {held : Nat} (hin : g.contains q = true) (hfirst : q ≠ g.first) (hlast : q = g.last) :
    g.fill q held = some [{ g with count := g.count - 1, tries := 0 }] := by
  have hin : (q - g.first).toNat < g.count := of_decide_eq_true hin
  have hpos : 1 ≤ (q - g.first).toNat := by bv_omega
  rw [Gap.fill, if_neg hfirst, if_pos hlast, Gap.part_from_start (by omega)]

theorem Gap.fill_full {held : Nat} (hfirst : q ≠ g.first) (hlast : q ≠ g.last) (hheld : 32 ≤ held) :
    g.fill q held = none := by
  rw [Gap.fill, if_neg hfirst, if_neg hlast]
  exact if_neg (Nat.not_lt.2 hheld)

/-- A number inside a gap that is not its last one leaves numbers above it. -/
theorem Gap.room_above (hin : g.contains q = true) (hlast : q ≠ g.last) : (q - g.first).toNat + 1 < g.count := by
  have hin : (q - g.first).toNat < g.count := of_decide_eq_true hin
  rcases Nat.lt_or_ge ((q - g.first).toNat + 1) g.count with h | h
  · exact h
  · refine absurd ?_ hlast
    have hcount : g.count = (q - g.first).toNat + 1 := by omega
    have hq : BitVec.ofNat 16 (q - g.first).toNat = q - g.first := by rw [BitVec.ofNat_toNat, BitVec.setWidth_eq]
    rw [Gap.last, hcount, BitVec.ofNat_add, hq]
    bv_omega

theorem Gap.fill_between {held : Nat} (hin : g.contains q = true) (hfirst : q ≠ g.first) (hlast : q ≠ g.last)
    (hheld : held < 32) :
    g.fill q held =
      some [{ g with count := (q - g.first).toNat, tries := 0 },
        { g with first := q + 1, count := g.count - 1 - (q - g.first).toNat, tries := 0 }] := by
  have hpos : 0 < (q - g.first).toNat := by bv_omega
  have habove := Gap.room_above hin hlast
  have hnext : g.first + BitVec.ofNat 16 ((q - g.first).toNat + 1) = q + 1 := by
    have hq : BitVec.ofNat 16 (q - g.first).toNat = q - g.first := by rw [BitVec.ofNat_toNat, BitVec.setWidth_eq]
    rw [BitVec.ofNat_add, hq]
    bv_omega
  rw [Gap.fill, if_neg hfirst, if_neg hlast, if_pos (show held < gapCapacity from hheld), Gap.part_from_start hpos,
    Gap.part_of_pos (by omega), hnext]
  rfl

end

section
variable {r : Record} {g : Gap} {above below : List Gap}

/-- R95: the gaps of the record's station that hold its number. -/
def Gap.heldBy (r : Record) (g : Gap) : Bool := g.station == r.station && g.contains r.seq

theorem Gap.heldBy_iff : g.heldBy r = true ↔ g.station = r.station ∧ g.contains r.seq = true := by
  simp [Gap.heldBy]

theorem Gap.not_heldBy_iff : g.heldBy r = false ↔ (g.station = r.station → g.contains r.seq = false) := by
  rw [← Bool.not_eq_true, Gap.heldBy_iff, not_and, Bool.not_eq_true]

theorem State.takeOld_of_none (h : ∀ x ∈ s.sequencer.gaps, x.station = r.station → x.contains r.seq = false) :
    s.takeOld r = s.count .duplicatesDiscarded := by
  have hfind : s.sequencer.gaps.find? (Gap.heldBy r) = none :=
    List.find?_eq_none.2 fun x hx => Bool.eq_false_iff.1 (Gap.not_heldBy_iff.2 (h x hx))
  unfold Gap.heldBy at hfind
  simp only [State.takeOld, hfind]

section
variable (hgaps : s.sequencer.gaps = above ++ g :: below)
  (habove : ∀ x ∈ above, x.station = r.station → x.contains r.seq = false) (hstation : g.station = r.station)
  (hin : g.contains r.seq = true)
include hgaps habove hstation hin

theorem find?_heldBy : s.sequencer.gaps.find? (Gap.heldBy r) = some g := by
  rw [hgaps]
  exact find?_of_first (fun x hx => Gap.not_heldBy_iff.2 (habove x hx)) (Gap.heldBy_iff.2 ⟨hstation, hin⟩)

theorem State.takeOld_of_filled {parts : List Gap} (hfill : g.fill r.seq s.sequencer.gaps.length = some parts) :
    s.takeOld r = (s.setGaps (above ++ (parts ++ below))).accept r := by
  have hfind := find?_heldBy hgaps habove hstation hin
  have hreplace : replaceFirst (Gap.heldBy r) (fun _ => parts) s.sequencer.gaps = above ++ (parts ++ below) := by
    rw [hgaps]
    exact replaceFirst_of_mem (fun x hx => Gap.not_heldBy_iff.2 (habove x hx)) (Gap.heldBy_iff.2 ⟨hstation, hin⟩)
  unfold Gap.heldBy at hfind hreplace
  simp only [State.takeOld, hfind, hfill, hreplace]

theorem State.takeOld_of_not_filled (hfill : g.fill r.seq s.sequencer.gaps.length = none) : s.takeOld r = s := by
  have hfind := find?_heldBy hgaps habove hstation hin
  unfold Gap.heldBy at hfind
  simp only [State.takeOld, hfind, hfill]

end

end

/-- Settles O46: at NE, above it, in a gap, or a duplicate. -/
theorem recordIsSorted : Obligations.RecordIsSorted := by
  intro s r e ne he hne
  refine ⟨State.takeRecord_of_next he hne, fun hseq hfar => ?_, fun hold => ?_⟩
  · rw [State.takeRecord_of_above he hne hseq hfar]
    refine ⟨fun hrun hroom => ?_, fun hrun hfull => ?_, fun hlong => ?_⟩
    · rw [State.openRun_of_room hrun hroom]
    · rw [State.openRun_of_no_room hrun hfull]
    · rw [State.openRun_of_long hlong]
  · rw [State.takeRecord_of_below he hne hold]
    refine ⟨State.takeOld_of_none, fun g above below hgaps habove hstation hin => ?_⟩
    refine ⟨fun hfirst hone => ?_, fun hfirst hmore => ?_, fun hfirst hlast => ?_, fun hfirst hlast hroom => ?_,
      fun hfirst hlast hfull => ?_⟩
    · rw [State.takeOld_of_filled hgaps habove hstation hin (Gap.fill_only hfirst hone), List.nil_append]
    · rw [State.takeOld_of_filled hgaps habove hstation hin (Gap.fill_first hfirst hmore), List.cons_append,
        List.nil_append]
    · rw [State.takeOld_of_filled hgaps habove hstation hin (Gap.fill_last hin hfirst hlast), List.cons_append,
        List.nil_append]
    · rw [State.takeOld_of_filled hgaps habove hstation hin (Gap.fill_between hin hfirst hlast hroom),
        List.cons_append, List.cons_append, List.nil_append]
    · exact State.takeOld_of_not_filled hgaps habove hstation hin (Gap.fill_full hfirst hlast hfull)

/-! ### Watermarks (R93, R96) -/

theorem State.raiseWatermark_eq {i : Station} {e : SeqEntry} (h : s.seqEntry i = some e) (wm : Time) :
    s.raiseWatermark i wm =
      s.setSeqEntry i
        (some { e with
          watermark :=
            if 1 ≤ (wm - e.watermark).toNat ∧ (wm - e.watermark).toNat < 2 ^ 47 then wm else e.watermark }) := by
  simp only [State.raiseWatermark, h, laterOf, timeLater, decide_eq_true_eq]

theorem seqEntry_raiseWatermark {i : Station} {e : SeqEntry} (h : s.seqEntry i = some e) (wm : Time) :
    (s.raiseWatermark i wm).seqEntry i =
      some { e with
        watermark :=
          if 1 ≤ (wm - e.watermark).toNat ∧ (wm - e.watermark).toNat < 2 ^ 47 then wm else e.watermark } := by
  rw [State.raiseWatermark_eq h, State.seqEntry_setSeqEntry, if_pos rfl]

theorem SeqEntry.start_of_unset {e : SeqEntry} (h : e.next = none) (next : Seq) (wm : Time) :
    e.start next wm = ⟨e.incarnation, some next, wm⟩ := by
  simp only [SeqEntry.start, h]

theorem SeqEntry.start_of_set {e : SeqEntry} (h : e.next ≠ none) (next : Seq) (wm : Time) : e.start next wm = e := by
  obtain ⟨ne, hne⟩ := Option.ne_none_iff_exists'.1 h
  simp only [SeqEntry.start, hne]

/-! ### The frames (R93, R94, R96, R99) -/

/-- R95: records that follow NE without a gap move it on by their number. -/
theorem seqEntry_takeRecords {i : Station} {inc : Byte} {e : SeqEntry} (recs : List EventData) :
    ∀ {s : State} {first : Seq}, s.seqEntry i = some { e with next := some first } →
      (s.takeRecords i inc first recs).seqEntry i =
        some { e with next := some (first + BitVec.ofNat 16 recs.length) } := by
  induction recs with
  | nil =>
    intro s first h
    rw [State.takeRecords, h, List.length_nil, BitVec.add_zero]
  | cons d ds ih =>
    intro s first h
    have htaken : (s.takeRecord ⟨i, inc, first, d⟩).seqEntry i = some { e with next := some (first + 1) } := by
      rw [State.takeRecord_of_next (r := ⟨i, inc, first, d⟩) h rfl rfl, seqEntry_accept, seqEntry_advanceNext h]
    rw [State.takeRecords, ih htaken, List.length_cons, Nat.add_comm, BitVec.ofNat_add, ← BitVec.add_assoc]
    rfl

theorem State.setSeqEntry_self {i : Station} {e : SeqEntry} (h : s.seqEntry i = some e) :
    s.setSeqEntry i (some e) = s := by
  have htable : s.sequencer.table.set i.val (some e) = s.sequencer.table := by
    rw [← h]
    exact Vector.set_getElem_self _
  rw [State.setSeqEntry, htable]

section
variable {f : Frame} {e : SeqEntry} (he : s.seqEntry f.sender = some e)
include he

theorem sequencerTake_eq : s.sequencerTake f = s.takeBody f e := by
  simp only [State.sequencerTake, he]

/-- R93: the first EVENT of an incarnation. -/
theorem sequencerTake_first_event {wm : Time} {first : Seq} {recs : List EventData}
    (hbody : f.body = .event wm first recs) (hne : e.next = none) :
    s.sequencerTake f =
      ((s.setSeqEntry f.sender (some ⟨e.incarnation, some first, wm⟩)).takeRecords f.sender f.incarnation
        first recs).raiseWatermark f.sender wm := by
  rw [sequencerTake_eq he, State.takeBody, hbody]
  simp only [SeqEntry.start_of_unset hne]

theorem seqEntry_first_event {wm : Time} {first : Seq} {recs : List EventData}
    (hbody : f.body = .event wm first recs) (hne : e.next = none) :
    (s.sequencerTake f).seqEntry f.sender =
      some ⟨e.incarnation, some (first + BitVec.ofNat 16 recs.length), wm⟩ := by
  have hset : (s.setSeqEntry f.sender (some ⟨e.incarnation, some first, wm⟩)).seqEntry f.sender =
      some ⟨e.incarnation, some first, wm⟩ := by
    rw [State.seqEntry_setSeqEntry, if_pos rfl]
  rw [sequencerTake_first_event he hbody hne,
    seqEntry_raiseWatermark (seqEntry_takeRecords (e := ⟨e.incarnation, some first, wm⟩) recs hset), ite_self]

theorem sequencerTake_event {wm : Time} {first : Seq} {recs : List EventData}
    (hbody : f.body = .event wm first recs) (hne : e.next ≠ none) :
    s.sequencerTake f = (s.takeRecords f.sender f.incarnation first recs).raiseWatermark f.sender wm := by
  rw [sequencerTake_eq he, State.takeBody, hbody]
  simp only [SeqEntry.start_of_set hne, State.setSeqEntry_self he]

theorem sequencerTake_first_beacon {wm : Time} {next : Seq} {leaving : Bool}
    (hbody : f.body = .beacon wm next leaving) (hne : e.next = none) :
    s.sequencerTake f = s.setSeqEntry f.sender (some ⟨e.incarnation, some next, wm⟩) := by
  rw [sequencerTake_eq he, State.takeBody, hbody]
  simp only [hne, SeqEntry.start_of_unset hne]

theorem sequencerTake_beacon {wm : Time} {next ne : Seq} {leaving : Bool}
    (hbody : f.body = .beacon wm next leaving) (hne : e.next = some ne) :
    s.sequencerTake f = (s.trailing f.sender e ne next).raiseWatermark f.sender wm := by
  rw [sequencerTake_eq he, State.takeBody, hbody]
  simp only [hne]

theorem sequencerTake_request {target : Station} {inc : Byte} {ranges : List SeqRange}
    (hbody : f.body = .request target inc ranges) : s.sequencerTake f = s.suppress target inc ranges := by
  rw [sequencerTake_eq he, State.takeBody, hbody]

theorem sequencerTake_repeatRecords {first : Seq} {recs : List EventData}
    (hbody : f.body = .repeatRecords first recs) :
    s.sequencerTake f = if e.next = none then s else s.takeRecords f.sender f.incarnation first recs := by
  rw [sequencerTake_eq he, State.takeBody, hbody]
  cases e.next <;> rfl

theorem sequencerTake_repeatGone {first : Seq} {count : Byte} (hbody : f.body = .repeatGone first count) :
    s.sequencerTake f = if e.next = none then s else s.takeGone f.sender first count.toNat := by
  rw [sequencerTake_eq he, State.takeBody, hbody]
  cases e.next <;> rfl

end

section
variable {i : Station} {e : SeqEntry} {ne next : Seq}

theorem State.trailing_of_not_above (h : (next - ne).toNat = 0 ∨ 2 ^ 15 ≤ (next - ne).toNat) :
    s.trailing i e ne next = s := by
  refine if_neg fun habove => ?_
  obtain ⟨hpos, hlt⟩ := (seqAbove_iff _ _).1 habove
  omega

theorem State.trailing_of_above (hpos : 1 ≤ (next - ne).toNat) (hlt : (next - ne).toNat < 2 ^ 15) :
    s.trailing i e ne next = (s.openRun i e ne (next - ne).toNat).advanceNext i next :=
  if_pos ((seqAbove_iff _ _).2 ⟨hpos, hlt⟩)

theorem seqEntry_trailing (he : s.seqEntry i = some e) (hpos : 1 ≤ (next - ne).toNat)
    (hlt : (next - ne).toNat < 2 ^ 15) :
    (s.trailing i e ne next).seqEntry i = some { e with next := some next } := by
  rw [State.trailing_of_above hpos hlt, seqEntry_advanceNext ((seqEntry_openRun s i i e ne _).trans he)]

end

/-- Settles O45: one clause per kind of frame. -/
theorem sequencerTakesFrame : Obligations.SequencerTakesFrame := by
  intro s f
  refine ⟨fun hnone => by simp only [State.sequencerTake, hnone], fun wm e he => State.raiseWatermark_eq he wm,
    fun first => ⟨rfl, fun d ds => rfl⟩, fun e he => ?_⟩
  refine ⟨fun wm first recs hbody => ⟨fun hne => ?_, sequencerTake_event he hbody⟩, fun wm next leaving hbody =>
    ⟨sequencerTake_first_beacon he hbody, fun ne run hne hrun => ?_⟩, fun target inc ranges hbody =>
    sequencerTake_request he hbody, fun first recs hbody => ?_, fun first count hbody => ?_⟩
  case refine_1 => exact ⟨sequencerTake_first_event he hbody hne, seqEntry_first_event he hbody hne⟩
  case refine_2 =>
    subst hrun
    have htake := sequencerTake_beacon he hbody hne
    refine ⟨fun hnot => ?_, fun hpos hlt => ⟨?_, fun hrun hroom => ?_, fun hrun hfull => ?_, fun hlong => ?_⟩⟩
    · rw [htake, State.trailing_of_not_above hnot]
    · rw [htake, seqEntry_raiseWatermark (seqEntry_trailing he hpos hlt)]
    · rw [htake, State.trailing_of_above hpos hlt, State.openRun_of_room hrun hroom]
    · rw [htake, State.trailing_of_above hpos hlt, State.openRun_of_no_room hrun hfull]
    · rw [htake, State.trailing_of_above hpos hlt, State.openRun_of_long hlong]
  case refine_3 =>
    rw [sequencerTake_repeatRecords he hbody]
    exact ⟨fun hne => if_pos hne, fun hne => if_neg hne⟩
  case refine_4 =>
    rw [sequencerTake_repeatGone he hbody]
    exact ⟨fun hne => if_pos hne, fun hne => if_neg hne⟩

end Sys2Proof.Machine
end

section
/-! PROOFS. Suppression, GONE ranges and gaps left too far below NE (R98, R106, R107). -/

namespace Sys2Proof.Machine

variable {s : State}

/-! ### Counting an event several times (R177) -/

theorem toNat_saturate16 (c : BitVec 16) : (saturate16 c).toNat = min 65535 (c.toNat + 1) := by
  unfold saturate16
  split
  · next h =>
    subst h
    rfl
  · bv_omega

theorem countTimes_requestsSuppressed (n : Nat) :
    ∀ s : State, ∃ c : Counters,
      c.requestsSuppressed.toNat = min 65535 (s.counters.requestsSuppressed.toNat + n) ∧
        { c with requestsSuppressed := s.counters.requestsSuppressed } = s.counters ∧
        s.countTimes .requestsSuppressed n = { s with counters := c } := by
  induction n with
  | zero =>
    intro s
    refine ⟨s.counters, ?_, rfl, rfl⟩
    omega
  | succ n ih =>
    intro s
    obtain ⟨c, hcount, hother, htimes⟩ := ih (s.count .requestsSuppressed)
    have hone : (s.count .requestsSuppressed).counters.requestsSuppressed.toNat =
        min 65535 (s.counters.requestsSuppressed.toNat + 1) := toNat_saturate16 _
    refine ⟨c, ?_, ?_, ?_⟩
    · omega
    · exact congrArg (fun k : Counters => { k with requestsSuppressed := s.counters.requestsSuppressed }) hother
    · rw [State.countTimes, htimes, State.count_of_not_loss _ rfl]

/-! ### The numbers a range and a gap share (R106, R107) -/

section
variable {g : Gap} {first : Seq} {n : Nat}

theorem Gap.overlap_eq :
    g.overlap first n =
      if 0 < n ∧ (first - g.first).toNat < g.count then
        some ((first - g.first).toNat, min n (g.count - (first - g.first).toNat))
      else if (g.first - first).toNat < n then some (0, min g.count (n - (g.first - first).toNat))
      else none := rfl

theorem Gap.isSome_overlap :
    (g.overlap first n).isSome = true ↔
      0 < n ∧ (first - g.first).toNat < g.count ∨ (g.first - first).toNat < n := by
  rw [Gap.overlap_eq]
  split
  · next h => exact iff_of_true rfl (.inl h)
  · next hnot =>
    rw [or_iff_right hnot]
    split
    · next h => exact iff_of_true rfl h
    · next h => exact iff_of_false Bool.false_ne_true h

/-- A range of at most 255 numbers meets a gap of 1 to 1,024 exactly where the two share a number. -/
theorem Gap.isSome_overlap_iff (hpos : 1 ≤ g.count) (hsize : g.count ≤ 1024) (hn : n ≤ 255) :
    (g.overlap first n).isSome = true ↔
      ∃ j k : Nat, j < n ∧ k < g.count ∧ first + BitVec.ofNat 16 j = g.first + BitVec.ofNat 16 k := by
  rw [Gap.isSome_overlap]
  refine ⟨fun h => ?_, fun ⟨j, k, hj, hk, heq⟩ => ?_⟩
  · rcases h with ⟨hn, hinto⟩ | hahead
    · exact ⟨0, _, hn, hinto, by rw [BitVec.ofNat_toNat, BitVec.setWidth_eq]; bv_omega⟩
    · exact ⟨_, 0, hahead, hpos, by rw [BitVec.ofNat_toNat, BitVec.setWidth_eq]; bv_omega⟩
  · rcases Nat.le_total j k with hle | hle
    · exact .inl ⟨by omega, by bv_omega⟩
    · rcases Nat.eq_or_lt_of_le hle with rfl | hlt
      · exact .inl ⟨by omega, by bv_omega⟩
      · exact .inr (by bv_omega)

theorem Gap.overlap_eq_none (hpos : 1 ≤ g.count)
    (h : ∀ k, k < g.count → n ≤ (g.first + BitVec.ofNat 16 k - first).toNat) : g.overlap first n = none := by
  rw [← Option.isNone_iff_eq_none, ← Option.not_isSome, Bool.not_eq_true', ← Bool.not_eq_true, Gap.isSome_overlap]
  rintro (⟨hn, hinto⟩ | hahead)
  · have hstart := h _ hinto
    rw [BitVec.ofNat_toNat, BitVec.setWidth_eq] at hstart
    bv_omega
  · have hstart := h 0 hpos
    rw [BitVec.add_zero] at hstart
    omega

/-- A range that begins in a gap. -/
theorem Gap.mem_range_iff_of_into (hsize : g.count ≤ 1024) (hn : n ≤ 255) (hinto : (first - g.first).toNat < g.count)
    {k : Nat} (hk : k < g.count) :
    (g.first + BitVec.ofNat 16 k - first).toNat < n ↔
      (first - g.first).toNat ≤ k ∧ k < (first - g.first).toNat + n := by
  bv_omega

/-- A range that begins before a gap and reaches into it. -/
theorem Gap.mem_range_iff_of_ahead (hsize : g.count ≤ 1024) (hn : n ≤ 255) (hahead : (g.first - first).toNat < n)
    {k : Nat} (hk : k < g.count) :
    (g.first + BitVec.ofNat 16 k - first).toNat < n ↔ k < n - (g.first - first).toNat := by
  bv_omega

/-- Two runs of offsets below `size` with the same members are the same run. -/
theorem run_unique {size a b lo len : Nat} (hb : 1 ≤ b) (hab : a + b ≤ size) (hlen : 1 ≤ len)
    (hfits : lo + len ≤ size) (h : ∀ k, k < size → (a ≤ k ∧ k < a + b ↔ lo ≤ k ∧ k < lo + len)) :
    a = lo ∧ b = len := by
  have hstart := h a (by omega)
  have hlow := h lo (by omega)
  have hend := h (a + b - 1) (by omega)
  have hlast := h (lo + len - 1) (by omega)
  omega

/-- The numbers of a gap that lie in the range are those from offset `lo` on, `len` of them. -/
theorem Gap.overlap_eq_some {lo len : Nat} (hpos : 1 ≤ g.count) (hsize : g.count ≤ 1024) (hn : n ≤ 255)
    (hlen : 1 ≤ len) (hfits : lo + len ≤ g.count)
    (h : ∀ k, k < g.count →
      ((g.first + BitVec.ofNat 16 k - first).toNat < n ↔ lo ≤ k ∧ k < lo + len)) :
    g.overlap first n = some (lo, len) := by
  have hmeets : 0 < n ∧ (first - g.first).toNat < g.count ∨ (g.first - first).toNat < n := by
    have hshared := (h lo (by omega)).2 ⟨le_rfl, by omega⟩
    refine Gap.isSome_overlap.1 ((Gap.isSome_overlap_iff hpos hsize hn).2 ⟨_, lo, hshared, by omega, ?_⟩)
    rw [BitVec.ofNat_toNat, BitVec.setWidth_eq]
    bv_omega
  rw [Gap.overlap_eq]
  split
  · next hinto =>
    obtain ⟨hnpos, hinto⟩ := hinto
    obtain ⟨hlo, hlen⟩ := run_unique (a := (first - g.first).toNat) (b := min n (g.count - (first - g.first).toNat))
      (by omega) (by omega) hlen hfits fun k hk => by
        rw [← h k hk, Gap.mem_range_iff_of_into hsize hn hinto hk]
        omega
    rw [hlo, ← hlo, hlen]
  · next hinto =>
    have hahead := hmeets.resolve_left hinto
    obtain ⟨hlo, hlen⟩ := run_unique (a := 0) (b := min g.count (n - (g.first - first).toNat))
      (by omega) (by omega) hlen hfits fun k hk => by
        rw [← h k hk, Gap.mem_range_iff_of_ahead hsize hn hahead hk]
        omega
    rw [if_pos hahead, hlo, hlen]

end

/-! ### Suppression (R106) -/

/-- R106: the reading of a gap a REQUEST affects that the statement gives. -/
theorem Gap.affectedBy_iff {g : Gap} {target : Station} {inc : Byte} {ranges : List SeqRange} (hpos : 1 ≤ g.count)
    (hsize : g.count ≤ 1024) :
    g.affectedBy target inc ranges = true ↔
      g.station = target ∧ g.incarnation = inc ∧ (g.due = true ∨ g.state = .waiting) ∧
        ∃ r ∈ ranges, ∃ j k : Nat, j < r.count.toNat ∧ k < g.count ∧
          r.first + BitVec.ofNat 16 j = g.first + BitVec.ofNat 16 k := by
  have hmeets (r : SeqRange) := Gap.isSome_overlap_iff (g := g) (first := r.first) hpos hsize
    (Nat.le_of_lt_succ r.count.isLt)
  simp only [Gap.affectedBy, Bool.and_eq_true, Bool.or_eq_true, beq_iff_eq, List.any_eq_true, hmeets, and_assoc]

theorem suppress_eq {target : Station} {inc : Byte} {ranges : List SeqRange} {hit : Gap → Bool}
    (h : ∀ g ∈ s.sequencer.gaps, g.affectedBy target inc ranges = hit g) :
    s.suppress target inc ranges =
      (s.setGaps (s.sequencer.gaps.map fun g =>
        if hit g then { g with deadline := s.l + millis s.setup.requestTimeout, due := false } else g)).countTimes
        .requestsSuppressed (s.sequencer.gaps.filter hit).length := by
  rw [State.suppress, List.filter_congr h, List.map_congr_left fun g hg => by rw [h g hg]]

/-! ### GONE ranges (R107) -/

section
variable {g : Gap} {first : Seq} {n : Nat}

theorem goneGap_of_none (h : g.overlap first n = none) : s.goneGap first n g = s := by
  simp only [State.goneGap, h]

theorem goneGap_of_split {lo len : Nat} (h : g.overlap first n = some (lo, len)) (hlo : 0 < lo)
    (hlen : lo + len < g.count) (hfull : 32 ≤ s.sequencer.gaps.length) : s.goneGap first n g = s := by
  have hsplit : lo ≠ 0 ∧ g.count - (lo + len) ≠ 0 ∧ gapCapacity ≤ s.sequencer.gaps.length :=
    ⟨by omega, by omega, hfull⟩
  simp only [State.goneGap, h, if_pos hsplit]

theorem goneGap_of_taken {lo len : Nat} {above below : List Gap} (hgaps : s.sequencer.gaps = above ++ g :: below)
    (habove : ∀ x ∈ above, ¬(x.station = g.station ∧ x.first = g.first))
    (h : g.overlap first n = some (lo, len)) (hfits : lo + len ≤ g.count)
    (hroom : lo = 0 ∨ lo + len = g.count ∨ s.sequencer.gaps.length < 32) :
    s.goneGap first n g =
      (s.setGaps (above ++ (g.part 0 lo ++ g.part (lo + len) (g.count - (lo + len))) ++ below)).makeHole
        ⟨g.station, g.incarnation, g.first + BitVec.ofNat 16 lo, len, .gone, g.bound⟩ := by
  have hnot : ¬(lo ≠ 0 ∧ g.count - (lo + len) ≠ 0 ∧ gapCapacity ≤ s.sequencer.gaps.length) :=
    fun ⟨hlo, hlen, hfull⟩ => by
      have : 32 ≤ s.sequencer.gaps.length := hfull
      omega
  simp only [State.goneGap, h, if_neg hnot, replaceFirst_isAt hgaps habove, List.append_assoc]

theorem Gap.part_above {m : Nat} (h : m ≤ g.count) :
    g.part m (g.count - m) =
      if m = g.count then []
      else [{ g with first := g.first + BitVec.ofNat 16 m, count := g.count - m, tries := 0 }] := by
  rw [Gap.part]
  exact if_congr (by omega) rfl rfl

theorem Gap.part_below (m : Nat) : g.part 0 m = if m = 0 then [] else [{ g with count := m, tries := 0 }] := by
  rw [Gap.part, BitVec.add_zero]

end

/-! ### The advance of NE (R98) -/

theorem advanceNext_of_none {i : Station} (h : s.seqEntry i = none) (next : Seq) : s.advanceNext i next = s := by
  simp only [State.advanceNext, h]

theorem advanceNext_eq {i : Station} {e : SeqEntry} {next : Seq} {far : Gap → Bool} (h : s.seqEntry i = some e)
    (hfar : ∀ g : Gap, far g = true ↔ g.station = i ∧ 32768 ≤ (next - g.first).toNat) :
    s.advanceNext i next =
      (s.sequencer.gaps.filter far).foldl (fun u g => u.makeHole (g.hole .beyond))
        ((s.setSeqEntry i (some { e with next := some next })).setGaps (s.sequencer.gaps.filter fun g => !far g)) := by
  have hbeyond (g : Gap) : g.beyond i next = far g :=
    Bool.eq_iff_iff.2 (by rw [hfar, Gap.beyond, Bool.and_eq_true, beq_iff_eq, decide_eq_true_iff])
  simp only [State.advanceNext, h, hbeyond, State.closeGaps]
  rfl

/-- Settles O47: suppression and GONE by the numbers a range and a gap share, and the advance of NE. -/
theorem suppressionGoneAndBeyond : Obligations.SuppressionGoneAndBeyond := by
  intro s hright
  refine ⟨fun target inc ranges hit hhit => ?_, fun i first count => ⟨rfl, fun g above below hgaps habove => ?_⟩,
    fun i next => ⟨fun hnone => advanceNext_of_none hnone next, fun e far he hfar => advanceNext_eq he hfar⟩⟩
  · have haffected (g : Gap) (hg : g ∈ s.sequencer.gaps) : g.affectedBy target inc ranges = hit g :=
      Bool.eq_iff_iff.2 ((Gap.affectedBy_iff (hright g hg).1 (hright g hg).2).trans (hhit g).symm)
    rw [suppress_eq haffected]
    exact countTimes_requestsSuppressed _ (s.setGaps (s.sequencer.gaps.map fun g =>
      if hit g then { g with deadline := s.l + millis s.setup.requestTimeout, due := false } else g))
  · obtain ⟨hpos, hsize⟩ := hright g (by rw [hgaps]; simp)
    refine ⟨fun hnone => goneGap_of_none (Gap.overlap_eq_none hpos hnone), fun lo len hlen hfits hshared => ?_⟩
    have hoverlap := Gap.overlap_eq_some hpos hsize (Nat.le_of_lt_succ count.isLt) hlen hfits hshared
    refine ⟨fun hlo habove hfull => goneGap_of_split hoverlap hlo habove hfull, fun hroom => ?_⟩
    rw [goneGap_of_taken hgaps habove hoverlap hfits hroom, Gap.part_below, Gap.part_above hfits]

end Sys2Proof.Machine
end

section
/-! PROOFS. The acceptance unit, the horizon, and what a delivery does to a stream or a slot (R116 to R120, R128, R132,
R134, R150, R151). -/

namespace Sys2Proof.Machine

variable {s : State}

/-! ### Classification (R116 to R120) -/

theorem State.firstRule_of_first {k : Key} {i : Fin 48} (hi : (s.setup.rules[i.val]).matchesKey k = true)
    (hfirst : ∀ j : Fin 48, j < i → (s.setup.rules[j.val]).matchesKey k = false) :
    s.firstRule k = some s.setup.rules[i.val] := by
  rw [State.firstRule, List.find?_eq_some_iff_getElem]
  refine ⟨hi, i.val, by simp, by simp, fun j hj => ?_⟩
  simpa using hfirst ⟨j, by omega⟩ hj

theorem State.firstRule_of_none {k : Key} (h : ∀ i : Fin 48, (s.setup.rules[i.val]).matchesKey k = false) :
    s.firstRule k = none := by
  refine List.find?_eq_none.2 fun rule hrule => ?_
  obtain ⟨i, hi, rfl⟩ := Vector.getElem_of_mem (Vector.mem_toList_iff.1 hrule)
  rw [h ⟨i, hi⟩]
  exact Bool.false_ne_true

theorem State.accept_of_rule {r : Record} {rule : Rule} (h : s.firstRule r.key = some rule) :
    s.accept r = (if rule.urgent then s.writeNote (r.note rule) else s).route r rule.action rule.slot := by
  simp only [State.accept, h]

theorem State.accept_of_default {r : Record} (h : s.firstRule r.key = none) :
    s.accept r = s.route r s.setup.defaultAction.toAction 0 := by
  simp only [State.accept, h]

theorem State.writeNote_of_room (h : s.urgent.notes.length < 4) (n : Note) :
    s.writeNote n = { s with urgent := ⟨s.urgent.notes ++ [n], s.urgent.overflow⟩ } := if_pos h

theorem State.writeNote_of_full (h : 4 ≤ s.urgent.notes.length) (n : Note) :
    s.writeNote n =
      { s with
        urgent := ⟨s.urgent.notes, true⟩
        counters := s.counters.advance .urgentOverflows
        lossAdvanced := true } := by
  rw [State.writeNote, if_neg (Nat.not_lt.2 h : ¬s.urgent.notes.length < noteCapacity), State.count_of_loss _ rfl]

/-- Settles O50: the first rule that matches, and the default action where none does. -/
theorem firstMatchDecides : Obligations.FirstMatchDecides := by
  refine fun s r => ⟨fun i hi hfirst => ?_, fun hnone => ?_⟩
  · refine ⟨if (s.setup.rules[i.val]).urgent then s.writeNote (r.note s.setup.rules[i.val]) else s, fun hurgent => ?_,
      fun hurgent hroom => ?_, fun hurgent hfull => ?_, ?_⟩
    · rw [hurgent]
      rfl
    · rw [if_pos hurgent, State.writeNote_of_room hroom]
      rfl
    · rw [if_pos hurgent, State.writeNote_of_full hfull]
    · rw [State.accept_of_rule (State.firstRule_of_first hi hfirst)]
      cases (s.setup.rules[i.val]).action <;> rfl
  · rw [State.accept_of_default (State.firstRule_of_none hnone)]
    cases s.setup.defaultAction <;> rfl

/-! ### The horizon (R82, R84, R112, R128) -/

theorem State.heldWatermark_eq_some {i : Station} {x : Time} :
    s.heldWatermark i = some x ↔
      i ≠ s.own ∧ (s.entry i).state = .live ∧
        ∃ e, s.seqEntry i = some e ∧ e.next.isSome = true ∧ e.watermark = x := by
  unfold State.heldWatermark
  split
  · next hpeer =>
    obtain ⟨hown, hlive⟩ := hpeer
    split
    · next e he => simp [hown, hlive, he]
    · next hnone => simp [hnone]
  · next hno =>
    exact iff_of_false (by simp) fun ⟨hown, hlive, _⟩ => hno ⟨hown, hlive⟩

/-- Settles O51: the horizons and the watermark by `earliestOf_mem` and `earliestOf_le`. -/
theorem horizonIsEarliest : Obligations.HorizonIsEarliest := by
  intro s base
  refine ⟨fun hlocal => ⟨earliestOf_mem _ _, earliestOf_le hlocal, fun hpeers hgaps => ?_⟩,
    fun n hinputs => ⟨earliestOf_mem _ _, earliestOf_le hinputs⟩, fun i x => State.heldWatermark_eq_some⟩
  have hinputs : ∀ x ∈ s.localHorizon ::
      ((List.finRange 32).filterMap s.heldWatermark ++ s.sequencer.gaps.map (·.bound)), (x - base).toNat < 2 ^ 47 := by
    intro x hx
    rcases List.mem_cons.1 hx with rfl | hx
    · exact hlocal _ (earliestOf_mem _ _)
    · rcases List.mem_append.1 hx with hx | hx
      · exact hpeers x hx
      · obtain ⟨g, hg, rfl⟩ := List.mem_map.1 hx
        exact hgaps g hg
  have hleast := earliestOf_le hinputs
  refine ⟨?_, hleast _ List.mem_cons_self, fun x hx => ?_, fun g hg => ?_⟩
  · rcases List.mem_cons.1 (earliestOf_mem s.localHorizon _) with hlocal | hmem
    · exact .inl hlocal
    · rcases List.mem_append.1 hmem with hpeer | hgap
      · exact .inr (.inl hpeer)
      · obtain ⟨g, hg, hbound⟩ := List.mem_map.1 hgap
        exact .inr (.inr ⟨g, hg, hbound.symm⟩)
  · exact hleast x (List.mem_cons_of_mem _ (List.mem_append_left _ hx))
  · exact hleast g.bound (List.mem_cons_of_mem _ (List.mem_append_right _ (List.mem_map.2 ⟨g, hg, rfl⟩)))

/-! ### Writing and dropping (R132, R134, R150, R151, R161) -/

theorem State.writeTo_of_room {id : StreamId} (h : (s.stream id).entries.length < 64) (item : Item)
    (late forced : Bool) : s.writeTo id item late forced = s.appendTo id item late forced :=
  if_neg fun hfull => Nat.not_le.2 h ((State.streamFull_iff id).1 hfull)

theorem State.writeTo_of_full {id : StreamId} (h : 64 ≤ (s.stream id).entries.length) (item : Item)
    (late forced : Bool) : s.writeTo id item late forced = s.dropFor id := if_pos ((State.streamFull_iff id).2 h)

theorem State.appendTo_eq (s : State) (id : StreamId) (item : Item) (late forced : Bool) :
    s.appendTo id item late forced =
      { s with
        journal := s.journal.setStream id
          { s.stream id with
            entries := (s.stream id).entries ++
              [⟨item, late, forced, if (s.stream id).dropped = 0 then none else some (s.stream id).dropped⟩]
            dropped := 0
            idleTimer :=
              if s.mode = Mode.setup then (s.stream id).idleTimer
              else some (s.l + millis (s.setup.stream id).idleTimeout) } } := by
  rw [State.appendTo, State.restartIdleTimer_eq]
  cases id <;> rfl

theorem State.dropFor_eq (s : State) (id : StreamId) :
    s.dropFor id =
      { s with
        journal := s.journal.setStream id { s.stream id with dropped := saturate8 (s.stream id).dropped }
        counters := s.counters.advance (.streamDropped id)
        lossAdvanced := true } := by
  have hloss : (Counter.streamDropped id).isLoss = true := by cases id <;> rfl
  rw [State.dropFor, State.count_of_loss _ hloss]
  rfl

/-- Settles O53: a stream with room, a full one, both streams, and a slot. -/
theorem deliveryReachesDestination : Obligations.DeliveryReachesDestination := by
  refine fun s item late forced => ⟨fun id => ⟨fun hroom => ?_, fun hfull => ?_⟩, rfl, fun n r hitem => ?_⟩
  · change s.writeTo id item late forced = _
    rw [State.writeTo_of_room hroom, State.appendTo_eq]
  · change s.writeTo id item late forced = _
    rw [State.writeTo_of_full hfull, State.dropFor_eq]
    cases id <;> rfl
  · subst hitem
    rfl

end Sys2Proof.Machine
end

section
/-! PROOFS. The merge pool: ordered release entry by entry, journal order, arrivals and the forced release (R126, R129,
R131, R133, R135 to R143). -/

namespace Sys2Proof.Machine

variable {s t : State}

/-! ### Delivery beside the pool -/

theorem State.dropFor_setPool (s : State) (p : List PoolEntry) (id : StreamId) :
    (s.setPool p).dropFor id = (s.dropFor id).setPool p := by
  rw [State.dropFor_eq, State.dropFor_eq]
  cases id <;> rfl

theorem State.appendTo_setPool (s : State) (p : List PoolEntry) (id : StreamId) (item : Item) (late forced : Bool) :
    (s.setPool p).appendTo id item late forced = (s.appendTo id item late forced).setPool p := by
  rw [State.appendTo_eq, State.appendTo_eq]
  cases id <;> rfl

theorem State.stream_setPool (s : State) (p : List PoolEntry) (id : StreamId) : (s.setPool p).stream id = s.stream id := by
  cases id <;> rfl

theorem State.writeTo_setPool (s : State) (p : List PoolEntry) (id : StreamId) (item : Item) (late forced : Bool) :
    (s.setPool p).writeTo id item late forced = (s.writeTo id item late forced).setPool p := by
  rcases Nat.lt_or_ge (s.stream id).entries.length 64 with hroom | hfull
  · rw [State.writeTo_of_room hroom, State.writeTo_of_room (by rw [State.stream_setPool]; exact hroom),
      State.appendTo_setPool]
  · rw [State.writeTo_of_full hfull, State.writeTo_of_full (by rw [State.stream_setPool]; exact hfull),
      State.dropFor_setPool]

/-- What a delivery does does not depend on the pooled entries. -/
theorem State.deliver_setPool (s : State) (p : List PoolEntry) (e : PoolEntry) (late forced : Bool) :
    (s.setPool p).deliver e late forced = (s.deliver e late forced).setPool p := by
  obtain ⟨item, destination⟩ := e
  cases destination with
  | stream id => exact State.writeTo_setPool s p id item late forced
  | bothStreams => simp only [State.deliver, State.writeTo_setPool]
  | slot n => cases item <;> rfl

/-! ### Ordered release (R131, R133, R135) -/

/-- R135: the entries reach their destinations in order. -/
def State.deliverAll (s : State) (es : List PoolEntry) : State := es.foldl (fun u e => u.deliver e false false) s

theorem deliverAll_onlyJournal (es : List PoolEntry) : ∀ s : State, OnlyJournal s (s.deliverAll es) := by
  induction es with
  | nil => exact fun s => OnlyJournal.refl s
  | cons e es ih => exact fun s => (deliver_onlyJournal s e false false).trans (ih _)

theorem State.holds_iff (id : StreamId) :
    s.holds id = true ↔ (s.setup.stream id).mode = .hold ∧ 64 ≤ (s.stream id).entries.length := by
  rw [State.holds, Bool.and_eq_true, beq_iff_eq]
  exact and_congr Iff.rfl (State.streamFull_iff id)

theorem State.held_iff (e : PoolEntry) :
    s.held e = true ↔
      ∃ id : StreamId, (e.destination = .stream id ∨ e.destination = .bothStreams) ∧
        (s.setup.stream id).mode = .hold ∧ 64 ≤ (s.stream id).entries.length := by
  simp only [← State.holds_iff]
  obtain ⟨item, destination⟩ := e
  cases destination with
  | stream id => simp [State.held]
  | bothStreams =>
    refine ⟨fun h => ?_, fun ⟨id, _, h⟩ => ?_⟩
    · rcases Bool.or_eq_true_iff.1 h with h | h
      · exact ⟨.a, .inr rfl, h⟩
      · exact ⟨.b, .inr rfl, h⟩
    · cases id with
      | a => exact Bool.or_eq_true_iff.2 (.inl h)
      | b => exact Bool.or_eq_true_iff.2 (.inr h)
  | slot n => simp [State.held]

/-- What release from `s` to `t` with the entries `gone` is: they are the head of the pool and are behind R, none is held
when it leaves, their deliveries are all that happens, and the next one stays for a reason. -/
structure Released (s : State) (gone : List PoolEntry) (t : State) : Prop where
  pool : s.journal.pool = gone ++ t.journal.pool
  through : t.journal.through = s.journal.through
  behind : ∀ e ∈ gone, s.behind e = true
  deliveries : t = (s.setPool t.journal.pool).deliverAll gone
  notHeld : ∀ pre e post, gone = pre ++ e :: post → ((s.setPool t.journal.pool).deliverAll pre).held e = false
  stops : ∀ e rest, t.journal.pool = e :: rest → t.behind e = false ∨ t.held e = true

theorem Released.none (h : ∀ e rest, s.journal.pool = e :: rest → s.behind e = false ∨ s.held e = true) :
    Released s [] s :=
  ⟨rfl, rfl, by simp, rfl, by simp, h⟩

/-- One entry leaves, and release goes on from there. -/
theorem Released.cons {e : PoolEntry} {rest gone : List PoolEntry} (hpool : s.journal.pool = e :: rest)
    (hbehind : s.behind e = true) (hheld : s.held e = false)
    (h : Released ((s.setPool rest).deliver e false false) gone t) : Released s (e :: gone) t := by
  obtain ⟨hrest, hthrough⟩ := pool_deliver (s.setPool rest) e false false
  have hthrough : ((s.setPool rest).deliver e false false).journal.through = s.journal.through := hthrough
  have hrest : ((s.setPool rest).deliver e false false).journal.pool = rest := hrest
  have hfirst (p : List PoolEntry) :
      ((s.setPool rest).deliver e false false).setPool p = (s.setPool p).deliver e false false :=
    (State.deliver_setPool (s.setPool rest) p e false false).symm
  have hdeliver := h.deliveries
  rw [hfirst] at hdeliver
  refine ⟨?_, h.through.trans hthrough, fun x hx => ?_, hdeliver, fun pre x post hgone => ?_, h.stops⟩
  · rw [hpool, List.cons_append, ← h.pool, hrest]
  · rcases List.mem_cons.1 hx with rfl | hx
    · exact hbehind
    · have hx := h.behind x hx
      rwa [State.behind, hthrough] at hx
  · cases pre with
    | nil =>
      obtain ⟨rfl, -⟩ := List.cons.inj hgone
      exact hheld
    | cons y pre =>
      obtain ⟨rfl, htail⟩ := List.cons.inj hgone
      have hnot := h.notHeld pre x post htail
      rwa [hfirst] at hnot

/-- R133: a stream in HOLD mode has room for an entry that leaves. -/
theorem Released.room {gone pre post : List PoolEntry} {e : PoolEntry} {id : StreamId} (h : Released s gone t)
    (hgone : gone = pre ++ e :: post) (hdest : e.destination = .stream id ∨ e.destination = .bothStreams)
    (hhold : (s.setup.stream id).mode = .hold) :
    (((s.setPool t.journal.pool).deliverAll pre).stream id).entries.length < 64 := by
  refine Nat.lt_of_not_le fun hfull => ?_
  have hsetup : ((s.setPool t.journal.pool).deliverAll pre).setup = s.setup := (deliverAll_onlyJournal pre _).setup
  have hheld := (State.held_iff e).2 ⟨id, hdest, by rw [hsetup]; exact hhold, hfull⟩
  rw [h.notHeld pre e post hgone] at hheld
  exact Bool.false_ne_true hheld

theorem releaseUpTo_released (n : Nat) :
    ∀ s : State, s.journal.pool.length ≤ n → ∃ gone, Released s gone (releaseUpTo n s) := by
  induction n with
  | zero =>
    intro s hn
    have hnil : s.journal.pool = [] := List.eq_nil_of_length_eq_zero (Nat.le_zero.1 hn)
    exact ⟨[], Released.none fun e rest hpool => by simp [hnil] at hpool⟩
  | succ n ih =>
    intro s hn
    unfold releaseUpTo
    split
    · next hnil => exact ⟨[], Released.none fun e rest hpool => by simp [hnil] at hpool⟩
    · next e rest hpool =>
      split
      · next hleaves =>
        obtain ⟨hbehind, hheld⟩ := Bool.and_eq_true_iff.1 hleaves
        rw [hpool, List.length_cons] at hn
        obtain ⟨hrest, -⟩ := pool_deliver (s.setPool rest) e false false
        obtain ⟨gone, h⟩ := ih ((s.setPool rest).deliver e false false)
          ((congrArg List.length hrest).trans_le (by change rest.length ≤ n; omega))
        exact ⟨e :: gone, h.cons hpool hbehind (Bool.eq_false_of_not_eq_true' hheld)⟩
      · next hstays =>
        refine ⟨[], Released.none fun x xs hx => ?_⟩
        obtain ⟨rfl, -⟩ := List.cons.inj (hpool.symm.trans hx)
        rwa [Bool.and_eq_true, not_and_or, Bool.not_eq_true, Bool.not_eq_true, Bool.not_eq_false'] at hstays

theorem State.raiseThrough_eq (s : State) (u : Time) :
    s.raiseThrough u = s.setThrough (if timeLater u s.journal.through then u else s.journal.through) := by
  unfold State.raiseThrough
  split
  · rfl
  · rfl

theorem settle_of_working (hmode : s.mode.working = true) :
    s.settle = releaseUpTo s.journal.pool.length
      (s.setThrough (if timeLater s.horizon s.journal.through then s.horizon else s.journal.through)) := by
  rw [State.settle, State.followHorizon, if_pos hmode, State.raiseThrough_eq, State.releaseReady]
  exact if_pos hmode

/-- Settles O52: R follows the horizon, and what is then behind it is `Released`. -/
theorem orderedReleaseSettles : Obligations.OrderedReleaseSettles := by
  refine fun s => ⟨fun hnot => congrArg Host.Outcome.next (settle_of_not_working s hnot), fun hmode => ?_⟩
  have honly := settle_onlyJournal s
  have hsettle := settle_of_working ((Mode.working_iff _).2 hmode)
  generalize (if timeLater s.horizon s.journal.through = true then s.horizon else s.journal.through) = r at hsettle
  obtain ⟨gone, h⟩ := releaseUpTo_released s.journal.pool.length (s.setThrough r) le_rfl
  rw [← hsettle] at h
  have hthrough : s.settle.journal.through = r := h.through
  refine ⟨s.settle, gone, rfl, honly, hthrough, h.pool, ?_, ?_, ?_, fun e rest hpool => ?_⟩
  · rw [hthrough]
    exact h.behind
  · rw [hthrough]
    exact h.deliveries
  · rw [hthrough]
    exact fun pre e post hgone id hdest hhold => h.room hgone hdest hhold
  · refine (h.stops e rest hpool).imp_right fun hheld => ?_
    rwa [State.held_iff, honly.setup] at hheld

end Sys2Proof.Machine
end

section
/-! PROOFS. Journal order, arrivals at the pool and the forced release (R126, R136 to R143). -/

namespace Sys2Proof.Machine

variable {s : State}

/-! ### Journal order (R126) -/

theorem Item.isHole_iff (a : Item) : a.isHole = true ↔ ∃ h, a = .hole h := by
  cases a <;> simp [Item.isHole]

theorem Item.not_isHole_iff (a : Item) : a.isHole = false ↔ ∃ r, a = .record r := by
  cases a <;> simp [Item.isHole]

theorem Item.standsBefore_iff (a b : Item) :
    a.standsBefore b = true ↔
      a.timestamp ≠ b.timestamp ∧ 1 ≤ (b.timestamp - a.timestamp).toNat ∧
          (b.timestamp - a.timestamp).toNat ≤ 2 ^ 47 ∨
        a.timestamp = b.timestamp ∧
          (a.station < b.station ∨
            a.station = b.station ∧
              (a.incarnation.toNat < b.incarnation.toNat ∨
                a.incarnation = b.incarnation ∧
                  (a.seq.toNat < b.seq.toNat ∨
                    a.seq = b.seq ∧ (∃ h, a = .hole h) ∧ ∃ r, b = .record r))) := by
  unfold Item.standsBefore
  split
  case isTrue htime => simp only [htime, timeEarlier, decide_eq_true_eq, false_and, or_false, ne_eq, not_false_eq_true, true_and]
  case isFalse htime =>
    rw [not_not] at htime
    split
    case isTrue hstation => simp [htime, hstation]
    case isFalse hstation =>
      rw [not_not] at hstation
      split
      case isTrue hinc => simp [htime, hstation, hinc, BitVec.lt_def]
      case isFalse hinc =>
        rw [not_not] at hinc
        split
        case isTrue hseq => simp [htime, hstation, hinc, hseq, BitVec.lt_def]
        case isFalse hseq =>
          rw [not_not] at hseq
          simp [htime, hstation, hinc, hseq, Item.isHole_iff, Item.not_isHole_iff]

/-- R126, R137: where the pool has a place for an entry, the entry takes it. -/
theorem placeInOrder_eq {e : PoolEntry} {ahead after : List PoolEntry}
    (hahead : ∀ x ∈ ahead, e.item.standsBefore x.item = false)
    (hafter : ∀ x ∈ after, e.item.standsBefore x.item = true ∧ x.item.standsBefore e.item = false) :
    placeInOrder e (ahead ++ after) = ahead.length := by
  have htake : (ahead ++ after).takeWhile (fun x => !e.item.standsBefore x.item) = ahead := by
    rw [List.takeWhile_append_of_pos fun x hx => by rw [hahead x hx]; rfl]
    cases after with
    | nil => rw [List.takeWhile_nil, List.append_nil]
    | cons x xs =>
      rw [List.takeWhile_cons_of_neg (by rw [(hafter x List.mem_cons_self).1]; exact Bool.false_ne_true),
        List.append_nil]
  have hall : after.all (fun x => e.item.standsBefore x.item && !x.item.standsBefore e.item) = true :=
    List.all_eq_true.2 fun x hx => by
      obtain ⟨hbefore, hnot⟩ := hafter x hx
      rw [hbefore, hnot]
      rfl
  simp only [placeInOrder, htake, List.drop_left, hall, if_true]

/-! ### Arrivals (R136 to R140, R143, R146) -/

theorem arrive_of_pooled {e : PoolEntry} (h : ∃ x ∈ s.journal.pool, e.item.sameRecord x.item = true) :
    s.arrive e = s.count .duplicatesDiscarded := if_pos (List.any_eq_true.2 h)

section
variable {e : PoolEntry} (hnew : ∀ x ∈ s.journal.pool, e.item.sameRecord x.item = false)
include hnew

theorem not_pooledAlready : ¬s.pooledAlready e = true := fun hany => by
  obtain ⟨x, hx, hsame⟩ := List.any_eq_true.1 hany
  rw [hnew x hx] at hsame
  exact Bool.false_ne_true hsame

theorem arrive_of_no_pool (hmode : s.mode = .setup ∨ s.mode = .stopped) : s.arrive e = s := by
  rw [State.arrive, if_neg (not_pooledAlready hnew)]
  rcases hmode with hmode | hmode <;> simp only [hmode]

theorem arrive_in_listening (hmode : s.mode = .listening) :
    s.arrive e = if s.poolFull then s.listeningDrop e else s.insert e := by
  rw [State.arrive, if_neg (not_pooledAlready hnew)]
  simp only [hmode]

theorem arrive_in_working (hmode : s.mode = .active ∨ s.mode = .leaving) :
    s.arrive e =
      if s.behind e then s.takeLate e
      else if s.poolFull then
        if s.forceHead.behind e then s.forceHead.takeLate e else s.forceHead.insert e
      else s.insert e := by
  rw [State.arrive, if_neg (not_pooledAlready hnew)]
  rcases hmode with hmode | hmode <;> simp only [hmode]

theorem arrive_of_room
    (hmode : s.mode = .listening ∨
      (s.mode = .active ∨ s.mode = .leaving) ∧ timeEarlier e.item.timestamp s.journal.through = false)
    (hroom : s.journal.pool.length < 256) : s.arrive e = s.insert e := by
  have hnotFull : ¬s.poolFull = true := fun hfull => Nat.not_le.2 hroom (State.poolFull_iff.1 hfull)
  rcases hmode with hmode | ⟨hmode, hlate⟩
  · rw [arrive_in_listening hnew hmode, if_neg hnotFull]
  · rw [arrive_in_working hnew hmode, State.behind, hlate, if_neg Bool.false_ne_true, if_neg hnotFull]

theorem arrive_of_late (hmode : s.mode = .active ∨ s.mode = .leaving)
    (hlate : timeEarlier e.item.timestamp s.journal.through = true) : s.arrive e = s.takeLate e := by
  rw [arrive_in_working hnew hmode, State.behind, if_pos hlate]

theorem arrive_of_listening_full (hmode : s.mode = .listening) (hfull : 256 ≤ s.journal.pool.length) :
    s.arrive e = s.listeningDrop e := by
  rw [arrive_in_listening hnew hmode, if_pos (State.poolFull_iff.2 hfull)]

theorem arrive_of_working_full (hmode : s.mode = .active ∨ s.mode = .leaving)
    (hlate : timeEarlier e.item.timestamp s.journal.through = false) (hfull : 256 ≤ s.journal.pool.length) :
    s.arrive e = if s.forceHead.behind e then s.forceHead.takeLate e else s.forceHead.insert e := by
  rw [arrive_in_working hnew hmode, State.behind, hlate, if_neg Bool.false_ne_true,
    if_pos (State.poolFull_iff.2 hfull)]

end

theorem takeLate_stream {r : Record} {id : StreamId} :
    s.takeLate ⟨.record r, .stream id⟩ =
      if s.setup.latePolicy = .deliver then s.deliver ⟨.record r, .stream id⟩ true false else s.count .lateDropped := by
  cases h : s.setup.latePolicy <;> simp [State.takeLate, h]

theorem listeningDrop_eq {e first : PoolEntry} {rest : List PoolEntry}
    (h : insertInOrder e s.journal.pool = first :: rest) :
    s.listeningDrop e = (s.setPool rest).countListeningDrop first := by
  simp only [State.listeningDrop, h]

/-- Settles O54: journal order, and the arrival by the mode, the pool and R. -/
theorem arrivalAtThePool : Obligations.ArrivalAtThePool := by
  refine ⟨Item.standsBefore_iff, fun r h => ⟨⟨rfl, rfl, rfl, rfl⟩, rfl, rfl, rfl, rfl⟩, fun s e =>
    ⟨arrive_of_pooled, fun hnew => ⟨arrive_of_no_pool hnew, fun hmode hroom => ?_, fun hmode hlate => ?_,
      fun first rest hmode hfull hinsert => ?_⟩⟩⟩
  · refine ⟨s.journal.pool.take (placeInOrder e s.journal.pool), s.journal.pool.drop (placeInOrder e s.journal.pool),
      (List.take_append_drop _ _).symm, arrive_of_room hnew hmode hroom, fun ahead after hpool hahead hafter => ?_⟩
    rw [hpool, placeInOrder_eq hahead hafter, List.take_left]
  · have hlate := arrive_of_late hnew hmode hlate
    obtain ⟨item, dest⟩ := e
    refine ⟨fun h hitem => ?_, fun r n hitem hdest => ?_, fun r id hitem hdest => ?_⟩
    · subst hitem
      exact hlate
    · subst hitem hdest
      exact hlate
    · subst hitem hdest
      rw [hlate, takeLate_stream]
      exact ⟨fun hdeliver => if_pos hdeliver, fun hdrop => if_neg (by simp [hdrop])⟩
  · rw [arrive_of_listening_full hnew hmode hfull, listeningDrop_eq hinsert, State.countListeningDrop]
    refine ⟨fun id hdest => ⟨_, rfl, ?_⟩, fun hdest => ?_, fun n hdest => ?_⟩
    · simp only [hdest]
      cases id <;> rfl
    · simp only [hdest, State.dropFor_eq]
      rfl
    · simp only [hdest]
      rfl

/-! ### The forced release (R141, R142) -/

theorem forceHead_eq {h : PoolEntry} {rest : List PoolEntry} (hpool : s.journal.pool = h :: rest) :
    s.forceHead =
      ((((s.setPool rest).deliver h false true).count .forcedReleases).setThrough
        (if timeLater (h.item.timestamp + 1) s.journal.through = true then h.item.timestamp + 1
          else s.journal.through)).releaseReady := by
  have hthrough : (((s.setPool rest).deliver h false true).count .forcedReleases).journal.through = s.journal.through :=
    (pool_deliver (s.setPool rest) h false true).2
  simp only [State.forceHead, hpool, State.raiseThrough_eq, hthrough]

/-- Settles O55: the head is forced out, and the arrival is tested again. -/
theorem forcedRelease : Obligations.ForcedRelease := by
  intro s e h rest hmode hnew hlate hpool hfull
  have hnonempty : s.journal.pool ≠ [] := by simp [hpool]
  have harrive := arrive_of_working_full hnew hmode hlate hfull
  refine ⟨_, s.forceHead, rfl, forceHead_eq hpool, length_forceHead_lt hnonempty, forceHead_onlyJournal s,
    fun hbehind => ?_, fun hnot => ?_⟩
  · rw [harrive, State.behind, if_pos hbehind]
  · rw [harrive, State.behind, hnot]
    rfl

end Sys2Proof.Machine
end

section
/-! PROOFS. Frames as bytes: every legal frame is read back, and its bytes stand where the tables have them (R4 to R12,
R15). -/

namespace Sys2Proof.Machine

/-! ### A record's bytes (Table 1-6) -/

/-- Table 1-6: the first byte of a record. -/
def recordFlags (channel : Channel) (value unsure loss : Bool) : Byte :=
  BitVec.ofNat 8 (channel.val + flagBit value 5 + flagBit unsure 6 + flagBit loss 7)

theorem recordFlags_fields (channel : Channel) (value unsure loss : Bool) :
    (recordFlags channel value unsure loss).toNat % 32 = channel.val ∧
      (recordFlags channel value unsure loss).getLsbD 5 = value ∧
      (recordFlags channel value unsure loss).getLsbD 6 = unsure ∧
      (recordFlags channel value unsure loss).getLsbD 7 = loss := by
  revert channel value unsure loss
  decide

theorem EventData.toBytes_eq (d : EventData) :
    d.toBytes =
      recordFlags d.channel d.value.isSome d.unsure d.loss.isSome :: d.code ::
        (leBytes 6 d.timestamp.toNat ++
          ((d.value.elim [] fun v => leBytes 2 v.toNat) ++ d.loss.toList)) := by
  obtain ⟨channel, code, timestamp, unsure, value, loss⟩ := d
  cases value <;> cases loss <;> rfl

theorem takeRecord_toBytes {d : EventData} (h : d.legal) (rest : List Byte) :
    takeRecord (d.toBytes ++ rest) = some (d, rest) := by
  obtain ⟨hchannel, hvalue, hunsure, hloss⟩ := recordFlags_fields d.channel d.value.isSome d.unsure d.loss.isSome
  rw [EventData.toBytes_eq]
  simp only [List.cons_append, List.append_assoc, takeRecord, takeField_time, hchannel, hvalue, hunsure, hloss]
  obtain ⟨channel, code, timestamp, unsure, value, loss⟩ := d
  have hnonzero (l : Byte) (hl : loss = some l) : ¬l = 0#8 := fun hzero => h (hl.trans (congrArg some hzero))
  cases value with
  | none =>
    cases loss with
    | none => simp
    | some l => simp [hnonzero l rfl]
  | some v =>
    cases loss with
    | none => simp [takeField_seq]
    | some l => simp [takeField_seq, hnonzero l rfl]

theorem takeRecords_flatMap (rest : List Byte) :
    ∀ recs : List EventData, (∀ d ∈ recs, d.legal) →
      takeRecords recs.length (recs.flatMap EventData.toBytes ++ rest) = some (recs, rest)
  | [], _ => rfl
  | d :: ds, h => by
    obtain ⟨hd, hds⟩ := List.forall_mem_cons.1 h
    simp only [List.flatMap_cons, List.append_assoc, List.length_cons, takeRecords, takeRecord_toBytes hd,
      takeRecords_flatMap rest ds hds]

theorem length_record_le (d : EventData) : d.toBytes.length ≤ 11 := by
  rw [EventData.toBytes_eq]
  simp only [List.length_cons, List.length_append, length_leBytes]
  obtain ⟨channel, code, timestamp, unsure, value, loss⟩ := d
  cases value <;> cases loss <;> simp [length_leBytes]

theorem length_records_le : ∀ recs : List EventData, (recs.flatMap EventData.toBytes).length ≤ 11 * recs.length
  | [] => Nat.le_refl 0
  | d :: ds => by
    have hd := length_record_le d
    have hds := length_records_le ds
    rw [List.flatMap_cons, List.length_append, List.length_cons]
    omega

/-! ### A range's bytes (Table 1-4) -/

theorem takeRanges_flatMap (rest : List Byte) :
    ∀ ranges : List SeqRange, (∀ r ∈ ranges, r.count ≠ 0) →
      takeRanges ranges.length (ranges.flatMap SeqRange.toBytes ++ rest) = some (ranges, rest)
  | [], _ => rfl
  | r :: rs, h => by
    obtain ⟨hr, hrs⟩ := List.forall_mem_cons.1 h
    simp only [List.flatMap_cons, SeqRange.toBytes, List.append_assoc, List.length_cons, takeRanges, takeField_seq,
      List.cons_append, List.nil_append, if_neg hr, takeRanges_flatMap rest rs hrs]
    rw [BitVec.ofNat_toNat, BitVec.setWidth_eq]

theorem length_range (r : SeqRange) : r.toBytes.length = 3 := rfl

theorem length_ranges (ranges : List SeqRange) : (ranges.flatMap SeqRange.toBytes).length = 3 * ranges.length := by
  simp [List.length_flatMap, length_range, Nat.mul_comm]

theorem drop_ranges : ∀ (k : Nat) (ranges : List SeqRange),
    (ranges.flatMap SeqRange.toBytes).drop (3 * k) = (ranges.drop k).flatMap SeqRange.toBytes
  | 0, _ => rfl
  | k + 1, [] => by simp
  | k + 1, r :: rs => by
    rw [List.flatMap_cons, Nat.mul_succ, Nat.add_comm, ← List.drop_drop, List.drop_left' (length_range r), drop_ranges k rs]
    rfl

/-! ### The body (Tables 1-2 to 1-5) -/

theorem toNat_ofNat_small {n : Nat} (h : n < 256) : (BitVec.ofNat 8 n).toNat = n :=
  (BitVec.toNat_ofNat n 8).trans (Nat.mod_eq_of_lt h)

theorem length_body {b : Body} (h : b.legal) : b.toBytes.length < 256 := by
  cases b with
  | event wm first recs =>
    obtain ⟨-, hcount, -⟩ := h
    have hcount : recs.length ≤ 8 := hcount
    have hrecs := length_records_le recs
    simp only [Body.toBytes, List.length_append, List.length_cons, length_leBytes]
    omega
  | beacon wm next leaving => simp [Body.toBytes, length_leBytes]
  | request target inc ranges =>
    obtain ⟨-, hcount, -⟩ := h
    have hcount : ranges.length ≤ 4 := hcount
    simp only [Body.toBytes, List.length_cons, length_ranges]
    omega
  | repeatRecords first recs =>
    obtain ⟨-, hcount, -⟩ := h
    have hcount : recs.length ≤ 8 := hcount
    have hrecs := length_records_le recs
    simp only [Body.toBytes, List.length_append, List.length_cons, length_leBytes]
    omega
  | repeatGone first count => simp [Body.toBytes, length_leBytes]

theorem ofNat_toNat_time (t : Time) : BitVec.ofNat 48 t.toNat = t := by rw [BitVec.ofNat_toNat, BitVec.setWidth_eq]

theorem ofNat_toNat_seq (q : BitVec 16) : BitVec.ofNat 16 q.toNat = q := by rw [BitVec.ofNat_toNat, BitVec.setWidth_eq]

section
variable {recs : List EventData} (hmost : recs.length ≤ recordsPerFrame)
include hmost

theorem toNat_record_count : (BitVec.ofNat 8 recs.length).toNat = recs.length :=
  toNat_ofNat_small (Nat.lt_of_le_of_lt hmost (by decide))

end

theorem takeRecords_all {recs : List EventData} (hlegal : ∀ d ∈ recs, d.legal) :
    takeRecords recs.length (recs.flatMap EventData.toBytes) = some (recs, []) := by
  have h := takeRecords_flatMap [] recs hlegal
  rwa [List.append_nil] at h

theorem takeRanges_all {ranges : List SeqRange} (hlegal : ∀ r ∈ ranges, r.count ≠ 0) :
    takeRanges ranges.length (ranges.flatMap SeqRange.toBytes) = some (ranges, []) := by
  have h := takeRanges_flatMap [] ranges hlegal
  rwa [List.append_nil] at h

theorem readEvent_toBytes {wm : Time} {first : Seq} {recs : List EventData} (h : (Body.event wm first recs).legal) :
    readEvent (Body.event wm first recs).toBytes = some (.event wm first recs) := by
  obtain ⟨hleast, hmost, hlegal⟩ := h
  simp only [Body.toBytes, List.append_assoc, readEvent, takeField_time, takeField_seq, toNat_record_count hmost,
    if_pos (And.intro hleast hmost), takeRecords_all hlegal, ofNat_toNat_time, ofNat_toNat_seq]

theorem readBeacon_toBytes (wm : Time) (next : Seq) (leaving : Bool) :
    readBeacon leaving (Body.beacon wm next leaving).toBytes = some (.beacon wm next leaving) := by
  have hnext := takeField_seq next []
  rw [List.append_nil] at hnext
  simp only [Body.toBytes, readBeacon, takeField_time, hnext, ofNat_toNat_time, ofNat_toNat_seq]

theorem readRequest_toBytes {target : Station} {inc : Byte} {ranges : List SeqRange}
    (h : (Body.request target inc ranges).legal) :
    readRequest (Body.request target inc ranges).toBytes = some (.request target inc ranges) := by
  obtain ⟨hleast, hmost, hlegal⟩ := h
  have hcount : (BitVec.ofNat 8 ranges.length).toNat = ranges.length :=
    toNat_ofNat_small (Nat.lt_of_le_of_lt hmost (by decide))
  simp only [Body.toBytes, readRequest, toNat_stationByte, target.isLt, dite_true, hcount,
    if_pos (And.intro hleast hmost), takeRanges_all hlegal]

theorem readRepeat_records {first : Seq} {recs : List EventData} (h : (Body.repeatRecords first recs).legal) :
    readRepeat false (Body.repeatRecords first recs).toBytes = some (.repeatRecords first recs) := by
  obtain ⟨hleast, hmost, hlegal⟩ := h
  simp only [Body.toBytes, readRepeat, takeField_seq, toNat_record_count hmost, if_pos (And.intro hleast hmost),
    takeRecords_all hlegal, ofNat_toNat_seq, if_neg Bool.false_ne_true]

theorem readRepeat_gone {first : Seq} {count : Byte} (h : (Body.repeatGone first count).legal) :
    readRepeat true (Body.repeatGone first count).toBytes = some (.repeatGone first count) := by
  simp only [Body.toBytes, readRepeat, takeField_seq, if_true, and_true, if_pos (show count ≠ 0 from h),
    ofNat_toNat_seq]

/-! ### The kind byte (R4) -/

/-- R4: the kind number of each body, as the table has it. -/
theorem Body.kind_eq (b : Body) :
    b.kind = match b with
      | .event _ _ _ => 1 | .beacon _ _ _ => 2 | .request _ _ _ => 3 | .repeatRecords _ _ | .repeatGone _ _ => 4 := by
  cases b <;> rfl

/-- Table 1-1: the kind byte of a kind number and the three flags. -/
def kindBits (kind : Fin 8) (agreed leaving gone : Bool) : Byte :=
  BitVec.ofNat 8 (kind.val + flagBit agreed 3 + flagBit leaving 4 + flagBit gone 5)

theorem kindBits_fields (kind : Fin 8) (agreed leaving gone : Bool) :
    (kindBits kind agreed leaving gone).toNat % 8 = kind.val ∧
      (kindBits kind agreed leaving gone).getLsbD 3 = agreed ∧
      (kindBits kind agreed leaving gone).getLsbD 4 = leaving ∧
      (kindBits kind agreed leaving gone).getLsbD 5 = gone ∧
      (kindBits kind agreed leaving gone).getLsbD 6 = false ∧
      (kindBits kind agreed leaving gone).getLsbD 7 = false := by
  revert kind agreed leaving gone
  decide

theorem kindByte_fields (f : Frame) :
    f.kindByte.toNat % 8 = f.body.kind ∧ f.kindByte.getLsbD 3 = f.clockAgreed ∧
      f.kindByte.getLsbD 4 = f.body.isLeaving ∧ f.kindByte.getLsbD 5 = f.body.isGone ∧
      f.kindByte.getLsbD 6 = false ∧ f.kindByte.getLsbD 7 = false := by
  have hkind : f.body.kind < 8 := by cases f.body <;> simp [Body.kind]
  exact kindBits_fields ⟨f.body.kind, hkind⟩ _ _ _

theorem Body.isLeaving_iff (b : Body) : b.isLeaving = true ↔ ∃ wm next, b = .beacon wm next true := by
  cases b <;> simp [Body.isLeaving]

theorem Body.isGone_iff (b : Body) : b.isGone = true ↔ ∃ first count, b = .repeatGone first count := by
  cases b <;> simp [Body.isGone]

theorem readBody_toBytes (f : Frame) (h : f.body.legal) : readBody f.kindByte f.body.toBytes = some f.body := by
  obtain ⟨hkind, -, hleaving, hgone, h6, h7⟩ := kindByte_fields f
  simp only [readBody, hkind, hleaving, hgone, h6, h7, Bool.or_self, if_neg Bool.false_ne_true]
  generalize f.body = b at h ⊢
  cases b with
  | event wm first recs => exact readEvent_toBytes h
  | beacon wm next leaving => exact readBeacon_toBytes wm next leaving
  | request target inc ranges => exact readRequest_toBytes h
  | repeatRecords first recs => exact readRepeat_records h
  | repeatGone first count => exact readRepeat_gone h

/-! ### The whole frame (Table 1-1) -/

/-- R11: a frame of at least 11 bytes that begins with SYNC is told by its length and then by its contents. -/
theorem classify_of_sync (kind sender inc s0 s1 s2 s3 s4 s5 len : Byte) (rest : List Byte) :
    classify (sync :: kind :: sender :: inc :: s0 :: s1 :: s2 :: s3 :: s4 :: s5 :: len :: rest) false =
      if rest.length < len.toNat + 2 then .cutShort
      else if len.toNat + 2 < rest.length then .crcFailed
      else
        classifyContents kind sender inc
          (kind :: sender :: inc :: s0 :: s1 :: s2 :: s3 :: s4 :: s5 :: len :: rest.take len.toNat)
          (rest.take len.toNat) (rest.drop len.toNat) [s0, s1, s2, s3, s4, s5] := by
  simp only [classify, if_neg Bool.false_ne_true, ne_eq, not_true_eq_false, if_false]

section
variable {f : Frame}

theorem Frame.toBytes_eq (f : Frame) :
    f.toBytes =
      sync :: f.kindByte :: BitVec.ofNat 8 f.sender.val :: f.incarnation ::
        (leBytes 6 f.sendStamp.toNat ++
          (BitVec.ofNat 8 f.body.toBytes.length :: (f.body.toBytes ++ leBytes 2 (crcOf f.covered).toNat))) := by
  simp only [Frame.toBytes, Frame.covered, List.cons_append, List.append_assoc]

theorem length_covered (f : Frame) : f.covered.length = 10 + f.body.toBytes.length := by
  simp only [Frame.covered, List.length_cons, List.length_append, length_leBytes]
  omega

theorem classifyContents_toBytes (h : f.body.legal) :
    classifyContents f.kindByte (BitVec.ofNat 8 f.sender.val) f.incarnation f.covered f.body.toBytes
      (leBytes 2 (crcOf f.covered).toNat) (leBytes 6 f.sendStamp.toNat) = .good f := by
  obtain ⟨-, hagreed, -⟩ := kindByte_fields f
  have hstamp := takeField_time f.sendStamp []
  rw [List.append_nil] at hstamp
  simp only [classifyContents, ne_eq, not_true_eq_false, if_false, toNat_stationByte, f.sender.isLt, dite_true,
    readBody_toBytes f h, hstamp, hagreed, ofNat_toNat_time]

theorem classify_toBytes (h : f.body.legal) : classify f.toBytes false = .good f := by
  have hlen : (BitVec.ofNat 8 f.body.toBytes.length).toNat = f.body.toBytes.length :=
    toNat_ofNat_small (length_body h)
  have hcrc : (f.body.toBytes ++ leBytes 2 (crcOf f.covered).toNat).length = f.body.toBytes.length + 2 := by
    rw [List.length_append, length_leBytes]
  rw [Frame.toBytes_eq]
  refine (classify_of_sync ..).trans ?_
  rw [hlen, hcrc, if_neg (Nat.lt_irrefl _), if_neg (Nat.lt_irrefl _), List.take_left, List.drop_left]
  exact classifyContents_toBytes h

end

/-! ### Fields at their offsets -/

theorem event_layout (wm : Time) (first : Seq) (recs : List EventData) (body : List Byte)
    (hbody : body = (Body.event wm first recs).toBytes) :
    takeField 6 body = some (wm.toNat, body.drop 6) ∧
      takeField 2 (body.drop 6) = some (first.toNat, body.drop 8) ∧
      body.drop 8 = BitVec.ofNat 8 recs.length :: recs.flatMap EventData.toBytes := by
  subst hbody
  have htake := takeField_time wm
    (leBytes 2 first.toNat ++ BitVec.ofNat 8 recs.length :: recs.flatMap EventData.toBytes)
  rw [Body.toBytes, List.append_assoc]
  exact ⟨htake, takeField_seq first _, rfl⟩

theorem beacon_layout (wm : Time) (next : Seq) (leaving : Bool) (body : List Byte)
    (hbody : body = (Body.beacon wm next leaving).toBytes) :
    takeField 6 body = some (wm.toNat, body.drop 6) ∧ takeField 2 (body.drop 6) = some (next.toNat, []) := by
  subst hbody
  exact ⟨takeField_time wm (leBytes 2 next.toNat), takeField_seq next []⟩

theorem request_layout (target : Station) (inc : Byte) (ranges : List SeqRange) (body : List Byte)
    (hbody : body = (Body.request target inc ranges).toBytes) :
    (∃ st, body[0]? = some st ∧ st.toNat = target.val) ∧ body[1]? = some inc ∧
      body[2]? = some (BitVec.ofNat 8 ranges.length) ∧ body.length = 3 + 3 * ranges.length ∧
      ∀ k r, ranges[k]? = some r →
        takeField 2 (body.drop (3 + 3 * k)) = some (r.first.toNat, body.drop (5 + 3 * k)) ∧
        body[5 + 3 * k]? = some r.count := by
  subst hbody
  refine ⟨⟨_, rfl, toNat_stationByte target⟩, rfl, rfl, ?_, fun k r hr => ?_⟩
  · simp only [Body.toBytes, List.length_cons, length_ranges]
    omega
  · have hrest : ranges.drop k = r :: ranges.drop (k + 1) := by
      obtain ⟨hk, hget⟩ := List.getElem?_eq_some_iff.1 hr
      rw [← hget, List.drop_eq_getElem_cons hk]
    have hat : (Body.request target inc ranges).toBytes.drop (3 + 3 * k) =
        leBytes 2 r.first.toNat ++ r.count :: (ranges.drop (k + 1)).flatMap SeqRange.toBytes := by
      rw [← List.drop_drop]
      change (ranges.flatMap SeqRange.toBytes).drop (3 * k) = _
      rw [drop_ranges, hrest]
      rfl
    have hafter : (Body.request target inc ranges).toBytes.drop (5 + 3 * k) =
        r.count :: (ranges.drop (k + 1)).flatMap SeqRange.toBytes := by
      have hsum : 5 + 3 * k = (3 + 3 * k) + 2 := by omega
      rw [hsum, ← List.drop_drop, hat]
      rfl
    rw [hat, hafter, takeField_seq, ← List.head?_drop, hafter]
    exact ⟨rfl, rfl⟩

theorem record_fields (r : EventData) (d : List Byte) (hd : d = r.toBytes) :
    (∃ flags, d[0]? = some flags ∧ flags.toNat % 32 = r.channel.val ∧ flags.getLsbD 5 = r.value.isSome ∧
      flags.getLsbD 6 = r.unsure ∧ flags.getLsbD 7 = r.loss.isSome) ∧
      d[1]? = some r.code ∧ takeField 6 (d.drop 2) = some (r.timestamp.toNat, d.drop 8) ∧
      (r.value = none → d.drop 8 = r.loss.toList) ∧
      ∀ v, r.value = some v → takeField 2 (d.drop 8) = some (v.toNat, r.loss.toList) := by
  rw [EventData.toBytes_eq] at hd
  subst hd
  refine ⟨⟨_, rfl, recordFlags_fields _ _ _ _⟩, rfl, takeField_time r.timestamp _, fun hnone => ?_, fun v hv => ?_⟩
  · rw [hnone]
    rfl
  · rw [hv]
    exact takeField_seq v _

/-! ### The CRC (R5) -/

theorem crcBit_eq (c : BitVec 16) (bit : Bool) :
    crcBit c bit = if c.getLsbD 0 = bit then c >>> 1 else (c >>> 1) ^^^ 0x8408 := by
  unfold crcBit
  cases c.getLsbD 0 <;> cases bit <;> rfl

theorem crcOf_append (bs : List Byte) (b : Byte) :
    crcOf (bs ++ [b]) =
      (List.range 8).foldl
        (fun (c : BitVec 16) i => if c.getLsbD 0 = b.getLsbD i then c >>> 1 else (c >>> 1) ^^^ 0x8408) (crcOf bs) := by
  have hbit : (fun (c : BitVec 16) i => crcBit c (b.getLsbD i)) =
      fun (c : BitVec 16) i => if c.getLsbD 0 = b.getLsbD i then c >>> 1 else (c >>> 1) ^^^ 0x8408 :=
    funext fun c => funext fun i => crcBit_eq c _
  rw [crcOf, List.foldl_append, ← hbit]
  rfl

/-- Settles O56: the frame is read back, and the fields stand at their offsets. -/
theorem frameRoundTrip : Obligations.FrameRoundTrip := by
  refine ⟨fun f h => ⟨classify_toBytes h, f.toBytes, f.body.toBytes, rfl, rfl, length_body h, ?_⟩,
    record_fields, rfl, crcOf_append⟩
  obtain ⟨hkind, hagreed, hleaving, hgone, h6, h7⟩ := kindByte_fields f
  have hlen : (BitVec.ofNat 8 f.body.toBytes.length).toNat = f.body.toBytes.length :=
    toNat_ofNat_small (length_body h)
  have hcovered : (f.toBytes.drop 1).take (10 + f.body.toBytes.length) = f.covered := by
    rw [← length_covered]
    exact List.take_left
  have hdrop : f.toBytes.drop 11 = f.body.toBytes ++ leBytes 2 (crcOf f.covered).toNat := by
    rw [Frame.toBytes_eq]
    rfl
  have htrailer : f.toBytes.drop (11 + f.body.toBytes.length) = leBytes 2 (crcOf f.covered).toNat := by
    rw [← List.drop_drop, hdrop, List.drop_left]
  have hlength : f.toBytes.length = 13 + f.body.toBytes.length := by
    rw [Frame.toBytes, List.length_append, List.length_cons, length_covered, length_leBytes]
    omega
  refine ⟨hlength, rfl, ⟨f.kindByte, rfl, hkind.trans f.body.kind_eq, hagreed, ?_, ?_, h6, h7⟩,
    ⟨_, rfl, toNat_stationByte f.sender⟩, rfl, ?_, ⟨_, ?_, hlen⟩, ?_, ?_, ?_, ?_, ?_, ?_, ?_⟩
  · rw [hleaving, Body.isLeaving_iff]
  · rw [hgone, Body.isGone_iff]
  · rw [Frame.toBytes_eq]
    exact takeField_time f.sendStamp _
  · rw [Frame.toBytes_eq]
    rfl
  · rw [hdrop, List.take_left]
  · have htake := takeField_seq (crcOf f.covered) []
    rw [htrailer, hcovered]
    exact htake
  · exact fun wm first recs hbody => event_layout wm first recs _ (congrArg Body.toBytes hbody)
  · exact fun wm next leaving hbody => beacon_layout wm next leaving _ (congrArg Body.toBytes hbody)
  · exact fun target inc ranges hbody => request_layout target inc ranges _ (congrArg Body.toBytes hbody)
  · intro first recs hbody
    rw [hbody]
    exact ⟨takeField_seq first _, rfl⟩
  · intro first count hbody
    rw [hbody]
    exact takeField_seq first [count]

end Sys2Proof.Machine
end

section
/-! PROOFS. The checks on a received frame: what its contents must satisfy to be read, and the class of any run of bytes
(R11, R12). -/

namespace Sys2Proof.Machine

/-! ### One record (R10, R12) -/

/-- R10: the value field, where the flags have one. -/
def takeValue (has : Bool) (bs : List Byte) : Option (Option (BitVec 16) × List Byte) :=
  if has then (takeField 2 bs).map fun (v, rest) => (some (BitVec.ofNat 16 v), rest) else some (none, bs)

/-- R10, R12: the loss field, where the flags have one; a loss field of 0 is none. -/
def takeLoss (has : Bool) (bs : List Byte) : Option (Option Byte × List Byte) :=
  if has then (bs.head?.filter (· != 0)).map fun l => (some l, bs.tail) else some (none, bs)

section
variable {flags code : Byte} {bs afterStamp afterValue : List Byte} {ts : Nat} {value : Option (BitVec 16)}

theorem takeRecord_of_value_none (hstamp : takeField 6 bs = some (ts, afterStamp))
    (hvalue : takeValue (flags.getLsbD 5) afterStamp = none) : takeRecord (flags :: code :: bs) = none := by
  unfold takeValue at hvalue
  simp only [takeRecord, hstamp, hvalue]

/-- R10: a record is its flags, code and timestamp, then the value and the loss. -/
theorem takeRecord_eq (hstamp : takeField 6 bs = some (ts, afterStamp))
    (hvalue : takeValue (flags.getLsbD 5) afterStamp = some (value, afterValue)) :
    takeRecord (flags :: code :: bs) =
      (takeLoss (flags.getLsbD 7) afterValue).map fun found =>
        (⟨⟨flags.toNat % 32, Nat.mod_lt _ (by decide)⟩, code, BitVec.ofNat 48 ts, flags.getLsbD 6, value, found.1⟩,
          found.2) := by
  unfold takeValue at hvalue
  simp only [takeRecord, hstamp, hvalue, takeLoss]
  cases flags.getLsbD 7 with
  | false => rfl
  | true =>
    cases afterValue with
    | nil => rfl
    | cons l rest =>
      by_cases hl : l = 0#8
      · simp [hl]
      · simp [Option.filter, hl]

end

/-- R10: the bytes of the value field. -/
def valueSize (has : Bool) : Nat := if has then 2 else 0

theorem takeValue_of_le {has : Bool} {bs : List Byte} (h : valueSize has ≤ bs.length) :
    ∃ value, takeValue has bs = some (value, bs.drop (valueSize has)) := by
  cases has with
  | false => exact ⟨none, rfl⟩
  | true =>
    obtain ⟨v, -, hv⟩ := takeField_of_le (show 2 ≤ bs.length from h)
    exact ⟨some (BitVec.ofNat 16 v), by rw [takeValue, if_pos rfl, hv]; rfl⟩

theorem takeValue_of_lt {has : Bool} {bs : List Byte} (h : bs.length < valueSize has) : takeValue has bs = none := by
  cases has with
  | false => cases h
  | true => rw [takeValue, if_pos rfl, takeField_of_lt (show bs.length < 2 from h)]; rfl

theorem takeLoss_of_right {has : Bool} {bs : List Byte} (h : has = true → ∃ l, bs[0]? = some l ∧ l ≠ 0) :
    ∃ loss, loss ≠ some 0 ∧ takeLoss has bs = some (loss, bs.drop (if has then 1 else 0)) := by
  cases has with
  | false => exact ⟨none, nofun, rfl⟩
  | true =>
    obtain ⟨l, hget, hl⟩ := h rfl
    cases bs with
    | nil => cases hget
    | cons x rest =>
      obtain rfl := Option.some.inj hget
      exact ⟨some x, fun hzero => hl (Option.some.inj hzero), by simp [takeLoss, Option.filter, show ¬x = 0#8 from hl]⟩

theorem takeLoss_of_wrong {bs : List Byte} (h : ∀ l, bs[0]? = some l → l = 0) : takeLoss true bs = none := by
  cases bs with
  | nil => rfl
  | cons x rest =>
    obtain rfl := h x rfl
    rfl

/-- R12: the bytes begin with a record: as many as its flags make it, with no loss field of 0. -/
def recordRight (flags : Byte) (rest : List Byte) : Bool :=
  decide (recordLength flags ≤ rest.length + 1)
    && !(flags.getLsbD 7 && (flags :: rest)[recordLength flags - 1]? == some 0)

section
variable {flags code : Byte} {bs : List Byte}

theorem recordLength_eq (flags : Byte) :
    recordLength flags = 8 + valueSize (flags.getLsbD 5) + if flags.getLsbD 7 then 1 else 0 := rfl

/-- R12: where a record's loss field stands, if it has one. -/
theorem recordRight_iff :
    recordRight flags (code :: bs) = true ↔
      6 + valueSize (flags.getLsbD 5) ≤ bs.length ∧
        (flags.getLsbD 7 = true → ∃ l, bs[6 + valueSize (flags.getLsbD 5)]? = some l ∧ l ≠ 0) := by
  rw [recordRight, recordLength_eq]
  generalize valueSize (flags.getLsbD 5) = size
  cases flags.getLsbD 7 with
  | false => simp; omega
  | true =>
    have hat : (flags :: code :: bs)[8 + size + 1 - 1]? = bs[6 + size]? := by
      rw [Nat.add_sub_cancel, show 8 + size = 6 + size + 1 + 1 by omega, List.getElem?_cons_succ,
        List.getElem?_cons_succ]
    simp only [if_true, hat, Bool.true_and, List.length_cons, Bool.and_eq_true, decide_eq_true_eq,
      Bool.not_eq_true', true_implies, beq_eq_false_iff_ne]
    refine ⟨fun ⟨hlen, hne⟩ => ⟨by omega, _, List.getElem?_eq_getElem (by omega), fun hzero => hne ?_⟩,
      fun ⟨hlen, l, hget, hne⟩ => ⟨?_, fun hzero => hne (Option.some.inj (hget.symm.trans hzero))⟩⟩
    · rw [List.getElem?_eq_getElem (by omega), hzero]
    · obtain ⟨hlt, -⟩ := List.getElem?_eq_some_iff.1 hget
      omega

theorem drop_recordLength :
    (flags :: code :: bs).drop (recordLength flags) =
      (bs.drop (6 + valueSize (flags.getLsbD 5))).drop (if flags.getLsbD 7 then 1 else 0) := by
  rw [List.drop_drop, recordLength_eq]
  generalize valueSize (flags.getLsbD 5) = size
  generalize (if flags.getLsbD 7 then 1 else 0) = loss
  rw [show 8 + size + loss = 6 + size + loss + 1 + 1 by omega, List.drop_succ_cons, List.drop_succ_cons]

theorem not_recordRight_nil : ¬recordRight flags [] = true := fun h => by
  have hlen := of_decide_eq_true (Bool.and_eq_true_iff.1 h).1
  rw [recordLength_eq, List.length_nil] at hlen
  omega

/-- R12: a run of bytes that begins with a record gives it, and the bytes after it. -/
theorem takeRecord_of_right (h : recordRight flags (code :: bs) = true) :
    ∃ d : EventData, d.legal ∧
      takeRecord (flags :: code :: bs) = some (d, (flags :: code :: bs).drop (recordLength flags)) := by
  obtain ⟨hlen, hloss⟩ := recordRight_iff.1 h
  obtain ⟨ts, -, hstamp⟩ := takeField_of_le (show 6 ≤ bs.length by omega)
  obtain ⟨value, hvalue⟩ := takeValue_of_le (has := flags.getLsbD 5) (bs := bs.drop 6)
    (by rw [List.length_drop]; omega)
  rw [List.drop_drop] at hvalue
  obtain ⟨loss, hne, hloss⟩ := takeLoss_of_right (has := flags.getLsbD 7)
    (bs := bs.drop (6 + valueSize (flags.getLsbD 5)))
    (by rw [List.getElem?_drop]; exact hloss)
  have htake := takeRecord_eq (code := code) hstamp hvalue
  rw [hloss, Option.map_some] at htake
  refine ⟨_, ?_, htake.trans (congrArg some (congrArg (Prod.mk _) ?_))⟩
  · exact hne
  · exact drop_recordLength.symm

theorem takeRecord_of_wrong (h : recordRight flags (code :: bs) = false) : takeRecord (flags :: code :: bs) = none := by
  have hnot : ¬recordRight flags (code :: bs) = true := by rw [h]; exact Bool.false_ne_true
  rw [recordRight_iff, not_and] at hnot
  rcases Nat.lt_or_ge bs.length 6 with hshort | hlen
  · simp only [takeRecord, takeField_of_lt hshort]
  obtain ⟨ts, -, hstamp⟩ := takeField_of_le hlen
  rcases Nat.lt_or_ge bs.length (6 + valueSize (flags.getLsbD 5)) with hshort | hlen
  · exact takeRecord_of_value_none hstamp (takeValue_of_lt (by rw [List.length_drop]; omega))
  obtain ⟨value, hvalue⟩ := takeValue_of_le (has := flags.getLsbD 5) (bs := bs.drop 6)
    (by rw [List.length_drop]; omega)
  have hloss := hnot hlen
  rw [Classical.not_imp, not_exists] at hloss
  obtain ⟨hhas, hzero⟩ := hloss
  rw [takeRecord_eq hstamp hvalue, hhas, takeLoss_of_wrong, Option.map_none]
  intro l hl
  rw [List.drop_drop, List.getElem?_drop] at hl
  exact not_not.1 fun hne => hzero l ⟨hl, hne⟩

end

/-! ### A run of records, and of ranges (R12) -/

theorem recordsFill_cons (n : Nat) (flags : Byte) (rest : List Byte) :
    recordsFill (n + 1) (flags :: rest) =
      (recordRight flags rest && recordsFill n ((flags :: rest).drop (recordLength flags))) := rfl

theorem takeRecords_succ_of_none {n : Nat} {bs : List Byte} (h : takeRecord bs = none) :
    takeRecords (n + 1) bs = none := by
  simp only [takeRecords, h]

theorem takeRecords_succ {n : Nat} {bs rest : List Byte} {d : EventData} (h : takeRecord bs = some (d, rest)) :
    takeRecords (n + 1) bs = (takeRecords n rest).map fun (ds, rest) => (d :: ds, rest) := by
  simp only [takeRecords, h]
  cases takeRecords n rest <;> rfl

theorem takeRecords_of_fill (n : Nat) :
    ∀ {bs : List Byte}, recordsFill n bs = true →
      ∃ recs, takeRecords n bs = some (recs, []) ∧ recs.length = n ∧ ∀ d ∈ recs, d.legal := by
  induction n with
  | zero =>
    intro bs h
    obtain rfl := List.isEmpty_iff.1 h
    exact ⟨[], rfl, rfl, nofun⟩
  | succ n ih =>
    intro bs h
    match bs, h with
    | flags :: rest, h =>
      rw [recordsFill_cons, Bool.and_eq_true] at h
      obtain ⟨hright, hfill⟩ := h
      match rest, hright, hfill with
      | [], hright, _ => exact absurd hright not_recordRight_nil
      | code :: rest, hright, hfill =>
        obtain ⟨d, hd, htake⟩ := takeRecord_of_right hright
        obtain ⟨recs, hrecs, hlength, hlegal⟩ := ih hfill
        refine ⟨d :: recs, ?_, by rw [List.length_cons, hlength], List.forall_mem_cons.2 ⟨hd, hlegal⟩⟩
        rw [takeRecords_succ htake, hrecs]
        rfl

theorem takeRecords_of_not_fill (n : Nat) :
    ∀ {bs : List Byte}, recordsFill n bs = false → ∀ recs, takeRecords n bs ≠ some (recs, []) := by
  induction n with
  | zero =>
    rintro bs h recs htake
    obtain ⟨-, rfl⟩ := Prod.mk.inj (Option.some.inj htake)
    cases h
  | succ n ih =>
    intro bs h recs htake
    match bs, h with
    | [], _ => cases htake
    | [flags], _ => cases htake
    | flags :: code :: rest, h =>
      rw [recordsFill_cons, Bool.and_eq_false_iff] at h
      rcases hright : recordRight flags (code :: rest) with _ | _
      · rw [takeRecords_succ_of_none (takeRecord_of_wrong hright)] at htake
        cases htake
      · obtain ⟨d, -, hrecord⟩ := takeRecord_of_right hright
        rw [takeRecords_succ hrecord] at htake
        obtain ⟨⟨ds, left⟩, hds, heq⟩ := Option.map_eq_some_iff.1 htake
        obtain ⟨-, rfl⟩ := Prod.mk.inj heq
        refine ih (h.resolve_left ?_) ds hds
        rw [hright]
        nofun

/-- R12: `n` ranges of three bytes, none of them of no numbers, fill the bytes exactly. -/
def RangesFill (n : Nat) (bs : List Byte) : Prop := bs.length = 3 * n ∧ ∀ k, k < n → bs[3 * k + 2]? ≠ some 0

theorem rangesFill_cons {n : Nat} {a b count : Byte} {rest : List Byte} :
    RangesFill (n + 1) (a :: b :: count :: rest) ↔ count ≠ 0 ∧ RangesFill n rest := by
  have hat (k : Nat) : (a :: b :: count :: rest)[3 * (k + 1) + 2]? = rest[3 * k + 2]? := by
    rw [show 3 * (k + 1) + 2 = 3 * k + 2 + 1 + 1 + 1 by omega, List.getElem?_cons_succ, List.getElem?_cons_succ,
      List.getElem?_cons_succ]
  refine ⟨fun ⟨hlen, hall⟩ => ⟨fun hzero => hall 0 (by omega) (by rw [hzero]; rfl), ?_, fun k hk => ?_⟩,
    fun ⟨hne, hlen, hall⟩ => ⟨?_, fun k hk => ?_⟩⟩
  · simp only [List.length_cons] at hlen
    omega
  · rw [← hat]
    exact hall (k + 1) (by omega)
  · simp only [List.length_cons]
    omega
  · cases k with
    | zero => exact fun hzero => hne (Option.some.inj hzero)
    | succ k => rw [hat]; exact hall k (by omega)

theorem takeRanges_cons (n : Nat) (a b count : Byte) (rest : List Byte) :
    takeRanges (n + 1) (a :: b :: count :: rest) =
      if count = 0 then none
      else (takeRanges n rest).map fun found => (⟨BitVec.ofNat 16 (a.toNat + 256 * (b.toNat + 256 * 0)), count⟩ :: found.1,
        found.2) := by
  simp only [takeRanges, takeField]
  split
  · rfl
  · cases takeRanges n rest <;> rfl

theorem takeRanges_of_fill (n : Nat) :
    ∀ {bs : List Byte}, RangesFill n bs →
      ∃ ranges, takeRanges n bs = some (ranges, []) ∧ ranges.length = n ∧ ∀ r ∈ ranges, r.count ≠ 0 := by
  induction n with
  | zero =>
    intro bs ⟨hlen, _⟩
    obtain rfl := List.eq_nil_of_length_eq_zero hlen
    exact ⟨[], rfl, rfl, nofun⟩
  | succ n ih =>
    intro bs h
    match bs, h with
    | [], ⟨hlen, _⟩ => cases hlen
    | [_], ⟨hlen, _⟩ => simp only [List.length_cons, List.length_nil] at hlen; omega
    | [_, _], ⟨hlen, _⟩ => simp only [List.length_cons, List.length_nil] at hlen; omega
    | a :: b :: count :: rest, h =>
      obtain ⟨hne, hfill⟩ := rangesFill_cons.1 h
      obtain ⟨ranges, htake, hlength, hall⟩ := ih hfill
      rw [takeRanges_cons, if_neg hne, htake]
      exact ⟨_, rfl, by rw [List.length_cons, hlength], List.forall_mem_cons.2 ⟨hne, hall⟩⟩

theorem fill_of_takeRanges (n : Nat) :
    ∀ {bs : List Byte} {ranges : List SeqRange}, takeRanges n bs = some (ranges, []) → RangesFill n bs := by
  induction n with
  | zero =>
    intro bs ranges h
    obtain ⟨-, rfl⟩ := Prod.mk.inj (Option.some.inj h)
    exact ⟨rfl, nofun⟩
  | succ n ih =>
    intro bs ranges h
    match bs, h with
    | [], h => cases h
    | [_], h => cases h
    | [_, _], h => cases h
    | a :: b :: count :: rest, h =>
      rw [takeRanges_cons] at h
      split at h
      · cases h
      · next hne =>
        obtain ⟨⟨found, left⟩, hfound, heq⟩ := Option.map_eq_some_iff.1 h
        obtain ⟨-, rfl⟩ := Prod.mk.inj heq
        exact rangesFill_cons.2 ⟨hne, ih hfound⟩

end Sys2Proof.Machine
end

section
/-! PROOFS. The bodies of the four kinds, the kind byte, and the class of a frame (R11, R12). -/

namespace Sys2Proof.Machine

/-- R12: contents that satisfy its rules are read as a legal body, and others are not read. -/
structure BodyReads (found : Option Body) (right : Bool) : Prop where
  good : right = true → ∃ b, found = some b ∧ b.legal
  bad : right = false → found = none

theorem BodyReads.none : BodyReads none false := ⟨nofun, fun _ => rfl⟩

/-! ### Fields of a body that is long enough -/

theorem drop_eq_cons {bs : List Byte} {n : Nat} {b : Byte} (h : bs[n]? = some b) : bs.drop n = b :: bs.drop (n + 1) := by
  obtain ⟨hlt, hget⟩ := List.getElem?_eq_some_iff.1 h
  rw [← hget, List.drop_eq_getElem_cons hlt]

/-- `n` records and nothing after them. -/
def wholeRecords (n : Nat) (bs : List Byte) : Option (List EventData) :=
  (takeRecords n bs).bind fun found => if found.2 = [] then some found.1 else none

theorem wholeRecords_of_fill {n : Nat} {bs : List Byte} (h : recordsFill n bs = true) :
    ∃ recs, wholeRecords n bs = some recs ∧ recs.length = n ∧ ∀ d ∈ recs, d.legal := by
  obtain ⟨recs, htake, hrecs⟩ := takeRecords_of_fill n h
  exact ⟨recs, by rw [wholeRecords, htake]; rfl, hrecs⟩

theorem wholeRecords_of_not_fill {n : Nat} {bs : List Byte} (h : recordsFill n bs = false) :
    wholeRecords n bs = none := by
  rw [wholeRecords, Option.bind_eq_none_iff]
  rintro ⟨recs, left⟩ htake
  refine if_neg fun hleft => takeRecords_of_not_fill n h recs ?_
  rw [htake]
  exact congrArg (fun rest => some (recs, rest)) hleft

/-- The records of an EVENT or a REPEAT, by their count. -/
def countedRecords (count : Byte) (bs : List Byte) : Option (List EventData) :=
  if 1 ≤ count.toNat ∧ count.toNat ≤ recordsPerFrame then wholeRecords count.toNat bs else none

theorem countedRecords_reads {count : Byte} {body : List Byte} {offset : Nat} (hat : body[offset]? = some count)
    {make : List EventData → Body}
    (hmake : ∀ recs, 1 ≤ recs.length → recs.length ≤ recordsPerFrame → (∀ d ∈ recs, d.legal) → (make recs).legal) :
    BodyReads ((countedRecords count (body.drop (offset + 1))).map make) (recordsRight offset body) := by
  simp only [recordsRight, hat]
  unfold countedRecords
  by_cases hcount : 1 ≤ count.toNat ∧ count.toNat ≤ 8
  · rw [if_pos (show 1 ≤ count.toNat ∧ count.toNat ≤ recordsPerFrame from hcount), decide_eq_true hcount, Bool.true_and]
    refine ⟨fun hfill => ?_, fun hnot => by rw [wholeRecords_of_not_fill hnot]; rfl⟩
    obtain ⟨recs, htake, hlength, hlegal⟩ := wholeRecords_of_fill hfill
    obtain ⟨hleast, hmost⟩ := hcount
    exact ⟨make recs, by rw [htake]; rfl, hmake recs (by omega) (by rw [hlength]; exact hmost) hlegal⟩
  · rw [if_neg (show ¬(1 ≤ count.toNat ∧ count.toNat ≤ recordsPerFrame) from hcount), decide_eq_false hcount,
      Bool.false_and]
    exact BodyReads.none

/-! ### The bodies (Tables 1-2 to 1-5) -/

section
variable {body : List Byte}

theorem readEvent_of_long {count : Byte} (h : body[8]? = some count) :
    ∃ wm first, readEvent body = (countedRecords count (body.drop 9)).map (Body.event wm first) := by
  obtain ⟨hlt, -⟩ := List.getElem?_eq_some_iff.1 h
  obtain ⟨wm, -, hwm⟩ := takeField_of_le (show 6 ≤ body.length by omega)
  obtain ⟨first, -, hfirst⟩ := takeField_of_le (n := 2) (bs := body.drop 6) (by rw [List.length_drop]; omega)
  rw [List.drop_drop, show 6 + 2 = 8 from rfl, drop_eq_cons h] at hfirst
  refine ⟨BitVec.ofNat 48 wm, BitVec.ofNat 16 first, ?_⟩
  simp only [readEvent, hwm, hfirst, countedRecords]
  split
  · rw [wholeRecords]
    rcases takeRecords count.toNat (body.drop (8 + 1)) with _ | ⟨recs, _ | ⟨x, xs⟩⟩ <;> rfl
  · rfl

theorem readEvent_of_short (h : body[8]? = none) : readEvent body = none := by
  have hlen := List.getElem?_eq_none_iff.1 h
  rcases Nat.lt_or_ge body.length 6 with hshort | hlong
  · simp only [readEvent, takeField_of_lt hshort]
  · obtain ⟨wm, -, hwm⟩ := takeField_of_le hlong
    rcases Nat.lt_or_ge (body.drop 6).length 2 with hshort | hlong
    · simp only [readEvent, hwm, takeField_of_lt hshort]
    · obtain ⟨first, -, hfirst⟩ := takeField_of_le hlong
      rw [List.drop_drop, List.drop_eq_nil_of_le hlen] at hfirst
      simp only [readEvent, hwm, hfirst]

theorem readEvent_reads (body : List Byte) : BodyReads (readEvent body) (recordsRight 8 body) := by
  cases h : body[8]? with
  | none =>
    rw [readEvent_of_short h]
    simp only [recordsRight, h]
    exact BodyReads.none
  | some count =>
    obtain ⟨wm, first, hread⟩ := readEvent_of_long h
    rw [hread]
    exact countedRecords_reads h fun recs hleast hmost hlegal => ⟨hleast, hmost, hlegal⟩

theorem readRepeat_of_long {count : Byte} (h : body[2]? = some count) :
    ∃ first, readRepeat false body = (countedRecords count (body.drop 3)).map (Body.repeatRecords first) ∧
      readRepeat true body = if count ≠ 0 ∧ body.drop 3 = [] then some (.repeatGone first count) else none := by
  obtain ⟨hlt, -⟩ := List.getElem?_eq_some_iff.1 h
  obtain ⟨first, -, hfirst⟩ := takeField_of_le (n := 2) (bs := body) (by omega)
  rw [drop_eq_cons h] at hfirst
  refine ⟨BitVec.ofNat 16 first, ?_, ?_⟩
  · simp only [readRepeat, hfirst, countedRecords, if_neg Bool.false_ne_true]
    split
    · rw [wholeRecords]
      rcases takeRecords count.toNat (body.drop (2 + 1)) with _ | ⟨recs, _ | ⟨x, xs⟩⟩ <;> rfl
    · rfl
  · simp only [readRepeat, hfirst, if_true]

theorem readRepeat_of_short (gone : Bool) (h : body[2]? = none) : readRepeat gone body = none := by
  have hlen := List.getElem?_eq_none_iff.1 h
  rcases Nat.lt_or_ge body.length 2 with hshort | hlong
  · simp only [readRepeat, takeField_of_lt hshort]
  · obtain ⟨first, -, hfirst⟩ := takeField_of_le hlong
    rw [List.drop_eq_nil_of_le hlen] at hfirst
    simp only [readRepeat, hfirst]

theorem readRepeat_records_reads (body : List Byte) : BodyReads (readRepeat false body) (recordsRight 2 body) := by
  cases h : body[2]? with
  | none =>
    rw [readRepeat_of_short false h]
    simp only [recordsRight, h]
    exact BodyReads.none
  | some count =>
    obtain ⟨first, hread, -⟩ := readRepeat_of_long h
    rw [hread]
    exact countedRecords_reads h fun recs hleast hmost hlegal => ⟨hleast, hmost, hlegal⟩

theorem readRepeat_gone_reads (body : List Byte) :
    BodyReads (readRepeat true body) (body.length == 3 && body[2]? != some 0) := by
  cases h : body[2]? with
  | none =>
    have hlen := List.getElem?_eq_none_iff.1 h
    rw [readRepeat_of_short true h, beq_eq_false_iff_ne.2 (by omega), Bool.false_and]
    exact BodyReads.none
  | some count =>
    obtain ⟨hlt, -⟩ := List.getElem?_eq_some_iff.1 h
    obtain ⟨first, -, hread⟩ := readRepeat_of_long h
    have hright : (body.length == 3 && some count != some 0) = true ↔ count ≠ 0 ∧ body.drop 3 = [] := by
      rw [Bool.and_eq_true, beq_iff_eq, bne_iff_ne, List.drop_eq_nil_iff, ne_eq, Option.some.injEq]
      exact ⟨fun ⟨hlen, hne⟩ => ⟨hne, hlen.le⟩, fun ⟨hne, hlen⟩ => ⟨by omega, hne⟩⟩
    rw [hread]
    refine ⟨fun hgood => ?_, fun hbad => if_neg fun hgood => ?_⟩
    · have hgood := hright.1 hgood
      exact ⟨_, if_pos hgood, hgood.1⟩
    · rw [hright.2 hgood] at hbad
      cases hbad

theorem readBeacon_reads (leaving : Bool) (body : List Byte) :
    BodyReads (readBeacon leaving body) (body.length == 8) := by
  rcases Nat.lt_or_ge body.length 6 with hshort | hlong
  · rw [beq_eq_false_iff_ne.2 (by omega)]
    simp only [readBeacon, takeField_of_lt hshort]
    exact BodyReads.none
  · obtain ⟨wm, -, hwm⟩ := takeField_of_le hlong
    rcases Nat.lt_or_ge (body.drop 6).length 2 with hshort | hlong
    · rw [beq_eq_false_iff_ne.2 (by rw [List.length_drop] at hshort; omega)]
      simp only [readBeacon, hwm, takeField_of_lt hshort]
      exact BodyReads.none
    · obtain ⟨next, -, hnext⟩ := takeField_of_le hlong
      rw [List.drop_drop] at hnext
      rw [List.length_drop] at hlong
      by_cases hlen : body.length = 8
      · rw [List.drop_eq_nil_of_le hlen.le] at hnext
        rw [beq_iff_eq.2 hlen]
        simp only [readBeacon, hwm, hnext]
        exact ⟨fun _ => ⟨_, rfl, trivial⟩, nofun⟩
      · rw [beq_eq_false_iff_ne.2 hlen]
        have hmore : body.drop (6 + 2) ≠ [] := fun hnil => by
          have := List.drop_eq_nil_iff.1 hnil
          omega
        obtain ⟨x, xs, hx⟩ := List.exists_cons_of_ne_nil hmore
        rw [hx] at hnext
        simp only [readBeacon, hwm, hnext]
        exact BodyReads.none

end

/-! ### The body of a REQUEST (Table 1-4) -/

section
variable {target inc count : Byte} {rest : List Byte}

theorem rangesRight_iff :
    rangesRight (target :: inc :: count :: rest) = true ↔
      target.toNat < 32 ∧ (1 ≤ count.toNat ∧ count.toNat ≤ 4) ∧ RangesFill count.toNat rest := by
  have hat (k : Nat) : (target :: inc :: count :: rest)[5 + 3 * k]? = rest[3 * k + 2]? := by
    rw [show 5 + 3 * k = 3 * k + 2 + 1 + 1 + 1 by omega, List.getElem?_cons_succ, List.getElem?_cons_succ,
      List.getElem?_cons_succ]
  have hget : (target :: inc :: count :: rest)[0]? = some target ∧ (target :: inc :: count :: rest)[2]? = some count :=
    ⟨rfl, rfl⟩
  simp only [rangesRight, hget, hat, Bool.and_eq_true, decide_eq_true_eq, List.all_eq_true, List.mem_range,
    bne_iff_ne, List.length_cons, RangesFill]
  refine ⟨fun ⟨⟨htarget, hleast, hmost, hlen⟩, hall⟩ => ⟨by omega, ⟨hleast, hmost⟩, by omega, hall⟩,
    fun ⟨htarget, ⟨hleast, hmost⟩, hlen, hall⟩ => ⟨⟨by omega, hleast, hmost, by omega⟩, hall⟩⟩

theorem readRequest_reads_cons :
    BodyReads (readRequest (target :: inc :: count :: rest)) (rangesRight (target :: inc :: count :: rest)) := by
  refine ⟨fun hright => ?_, fun hwrong => ?_⟩
  · obtain ⟨htarget, hcount, hfill⟩ := rangesRight_iff.1 hright
    obtain ⟨ranges, htake, hlength, hall⟩ := takeRanges_of_fill _ hfill
    refine ⟨.request ⟨target.toNat, htarget⟩ inc ranges, ?_, by rw [hlength]; exact hcount.1,
      by rw [hlength]; exact hcount.2, hall⟩
    have hcount : 1 ≤ count.toNat ∧ count.toNat ≤ rangesPerRequest := hcount
    simp only [readRequest, dif_pos htarget, if_pos hcount, htake]
  · have hnot : ¬rangesRight (target :: inc :: count :: rest) = true := by rw [hwrong]; exact Bool.false_ne_true
    rw [rangesRight_iff] at hnot
    by_cases htarget : target.toNat < 32
    · by_cases hcount : 1 ≤ count.toNat ∧ count.toNat ≤ rangesPerRequest
      · simp only [readRequest, dif_pos htarget, if_pos hcount]
        split
        · next ranges htake => exact absurd ⟨htarget, hcount, fill_of_takeRanges _ htake⟩ hnot
        · rfl
      · simp only [readRequest, dif_pos htarget, if_neg hcount]
    · simp only [readRequest, dif_neg htarget]

end

theorem readRequest_reads (body : List Byte) : BodyReads (readRequest body) (rangesRight body) := by
  match body with
  | [] => exact BodyReads.none
  | [_] => exact BodyReads.none
  | [_, _] => exact BodyReads.none
  | _ :: _ :: _ :: _ => exact readRequest_reads_cons

/-! ### The contents by the kind byte (R12) -/

theorem readBody_reads (kind : Byte) (body : List Byte) :
    BodyReads (readBody kind body) (contentsRight kind body) := by
  unfold readBody contentsRight
  generalize kind.getLsbD 4 = leaving
  generalize kind.getLsbD 5 = gone
  generalize kind.getLsbD 6 = r6
  generalize kind.getLsbD 7 = r7
  generalize kind.toNat % 8 = k
  cases r6 with
  | true => exact BodyReads.none
  | false =>
  cases r7 with
  | true => exact BodyReads.none
  | false =>
  match k with
  | 0 => cases leaving <;> cases gone <;> exact BodyReads.none
  | 1 =>
    cases leaving <;> cases gone
    · exact readEvent_reads body
    all_goals exact BodyReads.none
  | 2 =>
    cases gone
    · cases leaving <;> exact readBeacon_reads _ body
    · cases leaving <;> exact BodyReads.none
  | 3 =>
    cases leaving <;> cases gone
    · exact readRequest_reads body
    all_goals exact BodyReads.none
  | 4 =>
    cases leaving
    · cases gone
      · exact readRepeat_records_reads body
      · exact readRepeat_gone_reads body
    · cases gone <;> exact BodyReads.none
  | k + 5 =>
    cases leaving <;> cases gone <;> exact BodyReads.none

/-! ### The class (R11, R12) -/

/-- A run of at least 11 bytes has the ten fields of a header before the body. -/
theorem header_of_length {bs : List Byte} (h : 11 ≤ bs.length) :
    ∃ first kind sender inc s0 s1 s2 s3 s4 s5 len rest,
      bs = first :: kind :: sender :: inc :: s0 :: s1 :: s2 :: s3 :: s4 :: s5 :: len :: rest := by
  rcases bs with _ | ⟨first, _ | ⟨kind, _ | ⟨sender, _ | ⟨inc, _ | ⟨s0, _ | ⟨s1, _ | ⟨s2, _ | ⟨s3, _ | ⟨s4, _ | ⟨s5,
    _ | ⟨len, rest⟩⟩⟩⟩⟩⟩⟩⟩⟩⟩⟩
  case cons.cons.cons.cons.cons.cons.cons.cons.cons.cons.cons =>
    exact ⟨first, kind, sender, inc, s0, s1, s2, s3, s4, s5, len, rest, rfl⟩
  all_goals exact absurd h (by simp)

theorem classify_of_short {bs : List Byte} (h : bs.length < 11) : classify bs false = .cutShort := by
  unfold classify
  split
  · next hframing => cases hframing
  · split
    · simp only [List.length_cons] at h
      omega
    · rfl

theorem classify_of_not_sync {first : Byte} {rest : List Byte} (hlen : 11 ≤ (first :: rest).length)
    (h : first ≠ 0xA7) : classify (first :: rest) false = .crcFailed := by
  obtain ⟨f, kind, sender, inc, s0, s1, s2, s3, s4, s5, len, more, heq⟩ := header_of_length hlen
  obtain ⟨rfl, rfl⟩ := List.cons.inj heq
  have hsync : first ≠ sync := h
  simp only [classify, if_neg Bool.false_ne_true, if_pos hsync]

theorem takeField_append {n v : Nat} {bs rest more : List Byte} (h : takeField n bs = some (v, rest)) :
    takeField n (bs ++ more) = some (v, rest ++ more) := by
  induction n generalizing bs v rest with
  | zero =>
    obtain ⟨rfl, rfl⟩ := Prod.mk.inj (Option.some.inj h)
    rfl
  | succ n ih =>
    cases bs with
    | nil => cases h
    | cons b bs =>
      rw [takeField] at h
      split at h
      · next low left htake =>
        obtain ⟨rfl, rfl⟩ := Prod.mk.inj (Option.some.inj h)
        simp only [List.cons_append, takeField, ih htake]
      · cases h

theorem exists_stamp {stamp : List Byte} (h : stamp.length = 6) :
    ∃ t : Time, ∀ more, takeField 6 (stamp ++ more) = some (t.toNat, more) := by
  obtain ⟨v, hv, htake⟩ := takeField_of_le h.ge
  refine ⟨BitVec.ofNat 48 v, fun more => ?_⟩
  rw [takeField_append htake, List.drop_eq_nil_of_le h.le, List.nil_append, BitVec.toNat_ofNat,
    Nat.mod_eq_of_lt (hv.trans_eq (by norm_num))]

section
variable {kind sender inc : Byte} {covered body trailer stamp : List Byte}

theorem classifyContents_of_wrong_crc (h : trailer ≠ leBytes 2 (crcOf covered).toNat) :
    classifyContents kind sender inc covered body trailer stamp = .crcFailed := if_pos h

theorem classifyContents_of_sender (h : 31 < sender.toNat) :
    classifyContents kind sender inc covered body trailer stamp = .crcFailed := by
  unfold classifyContents
  split
  · rfl
  · rw [dif_neg (by omega)]

variable {i : Station} (htrailer : trailer = leBytes 2 (crcOf covered).toNat) (hi : i.val = sender.toNat)
include htrailer hi

theorem classifyContents_of_unread (h : readBody kind body = none) :
    classifyContents kind sender inc covered body trailer stamp = .malformed i := by
  have hsender : sender.toNat < 32 := hi ▸ i.isLt
  obtain rfl : i = ⟨sender.toNat, hsender⟩ := Fin.ext hi
  simp only [classifyContents, ne_eq, htrailer, not_true_eq_false, if_false, dif_pos hsender, h]

theorem classifyContents_of_read {b : Body} {t : Time} (h : readBody kind body = some b)
    (hstamp : takeField 6 stamp = some (t.toNat, [])) :
    classifyContents kind sender inc covered body trailer stamp = .good ⟨i, inc, kind.getLsbD 3, t, b⟩ := by
  have hsender : sender.toNat < 32 := hi ▸ i.isLt
  obtain rfl : i = ⟨sender.toNat, hsender⟩ := Fin.ext hi
  simp only [classifyContents, ne_eq, htrailer, not_true_eq_false, if_false, dif_pos hsender, h, hstamp,
    ofNat_toNat_time]

end

section
variable {bs : List Byte} {n : Byte}

theorem header_of_sync (hfirst : bs[0]? = some 0xA7) (hlen : bs[10]? = some n) :
    ∃ kind sender inc s0 s1 s2 s3 s4 s5 rest,
      bs = sync :: kind :: sender :: inc :: s0 :: s1 :: s2 :: s3 :: s4 :: s5 :: n :: rest := by
  obtain ⟨hlong, -⟩ := List.getElem?_eq_some_iff.1 hlen
  obtain ⟨first, kind, sender, inc, s0, s1, s2, s3, s4, s5, len, rest, rfl⟩ := header_of_length hlong
  obtain rfl : first = sync := Option.some.inj hfirst
  obtain rfl : len = n := Option.some.inj hlen
  exact ⟨kind, sender, inc, s0, s1, s2, s3, s4, s5, rest, rfl⟩

end

/-- Settles O57: the checks of R11 in order, then the contents. -/
theorem frameChecksDecideClass : Obligations.FrameChecksDecideClass := by
  refine fun bs => ⟨if_pos rfl, classify_of_short, fun first rest hbs hlen hfirst => ?_,
    fun n hfirst hn hshort => ?_, fun n hfirst hn hlong => ?_, fun n hfirst hn hlen => ?_⟩
  · subst hbs
    exact classify_of_not_sync hlen hfirst
  all_goals
    obtain ⟨kind, sender, inc, s0, s1, s2, s3, s4, s5, rest, rfl⟩ := header_of_sync hfirst hn
    rw [classify_of_sync]
  · simp only [List.length_cons] at hshort
    exact if_pos (by omega)
  · simp only [List.length_cons] at hlong
    exact (if_neg (by omega)).trans (if_pos (by omega))
  · simp only [List.length_cons] at hlen
    rw [if_neg (show ¬rest.length < n.toNat + 2 by omega), if_neg (show ¬n.toNat + 2 < rest.length by omega),
      Nat.add_comm 11, Nat.add_comm 10]
    refine ⟨fun hcrc => classifyContents_of_wrong_crc hcrc, fun hcrc kind' sender' inc' hkind hsender hinc => ?_⟩
    obtain rfl : kind = kind' := Option.some.inj hkind
    obtain rfl : sender = sender' := Option.some.inj hsender
    obtain rfl : inc = inc' := Option.some.inj hinc
    have hreads := readBody_reads kind (rest.take n.toNat)
    refine ⟨fun hhigh => classifyContents_of_sender hhigh, fun i hi => ⟨fun hwrong => ?_, fun hright => ?_⟩⟩
    · exact classifyContents_of_unread hcrc hi (hreads.bad hwrong)
    · obtain ⟨b, hread, hlegal⟩ := hreads.good hright
      obtain ⟨t, ht⟩ := exists_stamp (stamp := [s0, s1, s2, s3, s4, s5]) rfl
      exact ⟨t, b, classifyContents_of_read hcrc hi hread (ht []), ht _, hlegal⟩

end Sys2Proof.Machine
end

section
/-! PROOFS. The receiver over a run of microseconds: one microsecond by what the receiver is doing, and the ten bit times
of a byte (R1, R2, R14, R26). -/

namespace Sys2Proof.Machine

variable {n m : Line} {bt : Nat} {l st : Time} {before level : Bool}

/-! ### One microsecond -/

theorem passMicrosecond_off_line (h : n.mode.onLine = false) : n.passMicrosecond bt st l before level = n :=
  if_neg (by rw [h]; exact Bool.false_ne_true)

/-- On the line, where no fall is found and no own byte begins, only the idle time, the sample and the echo are left. -/
theorem passMicrosecond_eq (hon : n.mode.onLine = true) (hnotice : n.noticeFall (before && !level) ⟨st, l, n.idle⟩ = n)
    (hfollow : n.followOwn bt ⟨st, l, n.idle⟩ = n) :
    n.passMicrosecond bt st l before level = ((n.passIdle level).sample bt l level).compareEcho bt l level := by
  rw [Line.passMicrosecond, if_pos hon, hnotice, hfollow]

theorem compareEcho_of_same (h : n.flight.map (fun f => f.compare bt l level) = n.flight) :
    n.compareEcho bt l level = n := by
  rw [Line.compareEcho, h]

/-- A microsecond in which no own byte begins and the echo is as driven. -/
structure Still (flight : Option Flight) (bt : Nat) (l : Time) (level : Bool) : Prop where
  quiet : ∀ f, flight = some f → f.byteBegins bt l = false
  echo : flight.map (fun f => f.compare bt l level) = flight

theorem still_none : Still none bt l level := ⟨nofun, rfl⟩

theorem followOwn_of_quiet {fall : Fall} (h : ∀ f, n.flight = some f → f.byteBegins bt fall.stampL = false) :
    n.followOwn bt fall = n := by
  unfold Line.followOwn
  split
  · rfl
  · next f hf => rw [h f hf, if_neg Bool.false_ne_true]

theorem noticeFall_of_waiting (fell : Bool) (f : Fall) (h : n.receiver.phase ≠ .searching) : n.noticeFall fell f = n := by
  unfold Line.noticeFall
  split
  · next hphase => exact absurd hphase h
  all_goals rfl

theorem noticeFall_of_no_fall (f : Fall) : n.noticeFall false f = n := by
  unfold Line.noticeFall
  split <;> rfl

theorem passMicrosecond_of_still (hon : n.mode.onLine = true)
    (hnotice : n.noticeFall (before && !level) ⟨st, l, n.idle⟩ = n) (h : Still n.flight bt l level) :
    n.passMicrosecond bt st l before level = (n.passIdle level).sample bt l level := by
  rw [passMicrosecond_eq hon hnotice (followOwn_of_quiet h.quiet)]
  exact compareEcho_of_same (by rw [flight_sample, flight_passIdle]; exact h.echo)

section
variable (hon : n.mode.onLine = true) (hstill : Still n.flight bt l level)
include hon hstill

theorem passMicrosecond_reading {f : Fall} {bits : Nat} {value : Byte} (hphase : n.receiver.phase = .reading f bits value) :
    n.passMicrosecond bt st l before level =
      if f.middleOf bt (bits + 1) l then
        if bits < 8 then n.setPhase (.reading f (bits + 1) (withBit value bits level))
        else n.completeByte value level bt
      else n := by
  have hidle : n.passIdle level = n := by simp only [Line.passIdle, hphase]
  rw [passMicrosecond_of_still hon (noticeFall_of_waiting _ _ (by simp [hphase])) hstill, hidle]
  simp only [Line.sample, hphase]

theorem passMicrosecond_held {rested : Nat} (hphase : n.receiver.phase = .held rested) :
    n.passMicrosecond bt st l before level = n.awaitRelease rested level := by
  have hidle : n.passIdle level = n.awaitRelease rested level := by simp only [Line.passIdle, hphase]
  rw [passMicrosecond_of_still hon (noticeFall_of_waiting _ _ (by simp [hphase])) hstill, hidle]
  unfold Line.awaitRelease
  split
  · simp only [Line.sample, hphase]
  · simp only [Line.sample, Line.setPhase]

theorem passMicrosecond_searching_idle (hphase : n.receiver.phase = .searching) (hlevel : level = true) :
    n.passMicrosecond bt st l before level = n.rest := by
  subst hlevel
  have hidle : n.passIdle true = n.rest := by simp only [Line.passIdle, hphase, if_true]
  have hphase' : n.rest.receiver.phase = .searching := by
    unfold Line.rest
    split <;> exact hphase
  rw [passMicrosecond_of_still hon (by rw [Bool.not_true, Bool.and_false, noticeFall_of_no_fall]) hstill, hidle]
  simp only [Line.sample, hphase']

end

theorem passMicrosecond_searching_active (hon : n.mode.onLine = true) (hstill : Still n.flight bt l false)
    (hphase : n.receiver.phase = .searching) : n.passMicrosecond bt st l false false = n.restartIdle := by
  have hidle : n.passIdle false = n.restartIdle := by simp only [Line.passIdle, hphase, if_neg Bool.false_ne_true]
  have hphase' : n.restartIdle.receiver.phase = .searching := hphase
  rw [passMicrosecond_of_still hon (noticeFall_of_no_fall _) hstill, hidle]
  simp only [Line.sample, hphase']

theorem phase_rest (n : Line) : n.rest.receiver = n.receiver := by
  unfold Line.rest
  split <;> rfl

/-- R1, R26: a fall that is not confirmed: the idle time goes on, and the middle of the start bit decides. -/
theorem passMicrosecond_falling {f : Fall} (hon : n.mode.onLine = true) (hphase : n.receiver.phase = .falling f)
    (hfollow : n.followOwn bt ⟨st, l, n.idle⟩ = n) :
    n.passMicrosecond bt st l before level =
      (if f.middleOf bt 0 l then if level then n.rest.setPhase .searching else n.rest.confirmStart f
        else n.rest).compareEcho bt l level := by
  have hidle : n.passIdle level = n.rest := by simp only [Line.passIdle, hphase]
  have hphase' : n.rest.receiver.phase = .falling f := by rw [phase_rest, hphase]
  rw [passMicrosecond_eq hon (noticeFall_of_waiting _ _ (by simp [hphase])) hfollow, hidle]
  simp only [Line.sample, hphase']

/-! ### Microseconds of a run -/

/-- The line after the first `t` microseconds of a run. -/
def Line.upTo (n : Line) (bt : Nat) (l : Time) (before : Bool) (levels : List (Time × Bool)) (t : Nat) : Line :=
  n.passRun bt l before (levels.take t)

section
variable {levels : List (Time × Bool)}

theorem Line.upTo_length {t : Nat} (h : levels.length = t) : n.upTo bt l before levels t = n.passRun bt l before levels := by
  rw [Line.upTo, List.take_of_length_le h.le]

theorem add_micros_succ (l : Time) (t : Nat) : l + 1 + micros t = l + micros (t + 1) := by
  simp only [micros, BitVec.ofNat_add]
  bv_omega

/-- One microsecond more; what the line was before matters for the first one only. -/
theorem Line.upTo_succ {x : Time × Bool} : ∀ {levels : List (Time × Bool)} {t : Nat} {n : Line} {l : Time} {before : Bool},
    levels[t]? = some x → ∃ c, n.upTo bt l before levels (t + 1) =
      (n.upTo bt l before levels t).passMicrosecond bt x.1 (l + micros t) c x.2
  | [], _, _, _, _, h => by cases h
  | y :: ys, 0, n, l, before, h => by
    obtain rfl := Option.some.inj h
    exact ⟨before, by rw [micros, BitVec.add_zero]; rfl⟩
  | y :: ys, t + 1, n, l, before, h => by
    obtain ⟨c, hc⟩ := Line.upTo_succ (levels := ys) (t := t) (n := n.passMicrosecond bt y.1 l before y.2) (l := l + 1)
      (before := y.2) h
    rw [add_micros_succ] at hc
    exact ⟨c, hc⟩

/-- A run over which the line follows a family of states. -/
theorem Line.upTo_of_steps {a b : Nat} {states : Nat → Line} (hab : a ≤ b) (hlen : b ≤ levels.length)
    (hstart : n.upTo bt l before levels a = states a)
    (hstep : ∀ t x c, a ≤ t → t < b → levels[t]? = some x →
      (states t).passMicrosecond bt x.1 (l + micros t) c x.2 = states (t + 1)) :
    n.upTo bt l before levels b = states b := by
  induction b, hab using Nat.le_induction with
  | base => exact hstart
  | succ b hab ih =>
    obtain ⟨c, hc⟩ := Line.upTo_succ (bt := bt) (n := n) (l := l) (before := before)
      (List.getElem?_eq_getElem (show b < levels.length by omega))
    rw [hc, ih (by omega) fun t x c hat htb => hstep t x c hat (by omega)]
    exact hstep b _ c hab (by omega) (List.getElem?_eq_getElem _)

theorem middleOf_micros {f : Fall} {bit t : Nat} (hf : f.stampL = l) (ht : t < 2 ^ 48) :
    f.middleOf bt bit (l + micros t) = decide (t = bit * bt + bt / 2) := by
  have hoffset : (l + micros t - f.stampL).toNat = t := by
    rw [hf, micros]
    bv_omega
  rw [Fall.middleOf, hoffset, ← beq_eq_decide]

/-! ### The data bits of a byte (R1) -/

/-- The low `i` bits of a byte. -/
def lowBits (value : Byte) (i : Nat) : Byte := BitVec.ofNat 8 (value.toNat % 2 ^ i)

theorem getLsbD_lowBits (value : Byte) (i j : Nat) :
    (lowBits value i).getLsbD j = (decide (j < i) && value.getLsbD j) := by
  rw [lowBits, BitVec.getLsbD_ofNat, Nat.testBit_mod_two_pow]
  rcases Nat.lt_or_ge j 8 with hj | hj
  · rw [decide_eq_true hj, Bool.true_and]
    rfl
  · rw [decide_eq_false (Nat.not_lt.2 hj), Bool.false_and, BitVec.getLsbD_of_ge _ _ hj, Bool.and_false]

theorem lowBits_all (value : Byte) : lowBits value 8 = value :=
  BitVec.eq_of_getLsbD_eq fun j hj => by rw [getLsbD_lowBits, decide_eq_true hj, Bool.true_and]

theorem withBit_lowBits (value : Byte) (i : Nat) :
    withBit (lowBits value i) i (value.getLsbD i) = lowBits value (i + 1) := by
  refine BitVec.eq_of_getLsbD_eq fun j hj => ?_
  have hbit : (BitVec.ofNat 8 (2 ^ i)).getLsbD j = decide (i = j) := by
    rw [BitVec.getLsbD_ofNat, Nat.testBit_two_pow, decide_eq_true hj, Bool.true_and]
  have hwith : (withBit (lowBits value i) i (value.getLsbD i)).getLsbD j =
      ((decide (j < i) && value.getLsbD j) || (decide (i = j) && value.getLsbD i)) := by
    rw [withBit]
    cases value.getLsbD i with
    | false => rw [if_neg Bool.false_ne_true, getLsbD_lowBits, Bool.and_false, Bool.or_false]
    | true => rw [if_pos rfl, BitVec.getLsbD_or, getLsbD_lowBits, hbit, Bool.and_true]
  rw [hwith, getLsbD_lowBits]
  rcases Nat.lt_trichotomy j i with hlt | rfl | hgt
  · rw [decide_eq_true hlt, decide_eq_false hlt.ne', decide_eq_true (Nat.lt_succ_of_lt hlt), Bool.false_and,
      Bool.or_false]
  · rw [decide_eq_false (Nat.lt_irrefl j), decide_eq_true rfl, decide_eq_true (Nat.lt_succ_self j), Bool.false_and,
      Bool.false_or]
  · rw [decide_eq_false (by omega : ¬j < i), decide_eq_false hgt.ne, decide_eq_false (by omega : ¬j < i + 1),
      Bool.false_and, Bool.false_and, Bool.or_false]

/-! ### A byte from its confirmed start bit on (R1, R26) -/

theorem middle_lt {i : Nat} (hpos : 1 ≤ bt) (hi : i < 10) : i * bt + bt / 2 < 10 * bt := by
  have hle : i * bt ≤ 9 * bt := Nat.mul_le_mul_right bt (by omega)
  omega

section
variable {f : Fall} {value : Byte} {stop : Bool} {c : Line} (hpos : 1 ≤ bt) (hbt : bt ≤ 100)
  (hlevels : levels.length = 10 * bt) (hf : f.stampL = l) (hon : c.mode.onLine = true)
  (hstill : ∀ t x, bt / 2 < t → levels[t]? = some x → Still c.flight bt (l + micros t) x.2)
include hpos hbt hlevels hf hon hstill

/-- Between the middles of two bits nothing changes. -/
theorem upTo_next_middle {i : Nat} (hi : i < 9) {v : Byte}
    (h : n.upTo bt l before levels (i * bt + bt / 2 + 1) = c.setPhase (.reading f i v)) :
    n.upTo bt l before levels ((i + 1) * bt + bt / 2) = c.setPhase (.reading f i v) := by
  have hmiddle := middle_lt hpos (show i + 1 < 10 by omega)
  have hnext : (i + 1) * bt = i * bt + bt := Nat.succ_mul i bt
  refine Line.upTo_of_steps (states := fun _ => c.setPhase (.reading f i v)) (by omega) (by omega) h
    fun t x b hat htb hx => ?_
  have hnot : f.middleOf bt (i + 1) (l + micros t) = false := by
    rw [middleOf_micros hf (by omega)]
    exact decide_eq_false (by omega)
  rw [passMicrosecond_reading (n := c.setPhase (.reading f i v)) hon (hstill t x (by omega) hx) rfl, hnot,
    if_neg Bool.false_ne_true]

/-- The middle of a data bit reads it. -/
theorem upTo_data_bits {i : Nat} (hi : i ≤ 8) (hphase : c.receiver.phase = .reading f 0 0)
    (hstart : n.upTo bt l before levels (bt / 2 + 1) = c)
    (hbits : ∀ i, i < 8 → (levels[(i + 1) * bt + bt / 2]?).map (·.2) = some (value.getLsbD i)) :
    n.upTo bt l before levels (i * bt + bt / 2 + 1) = c.setPhase (.reading f i (lowBits value i)) := by
  induction i with
  | zero =>
    have hzero : lowBits value 0 = 0 := by rw [lowBits, Nat.pow_zero, Nat.mod_one]; rfl
    rw [Nat.zero_mul, Nat.zero_add, hstart, hzero, ← hphase]
    rfl
  | succ i ih =>
    have hmiddle := middle_lt hpos (show i + 1 < 10 by omega)
    obtain ⟨x, hx, hbit⟩ := Option.map_eq_some_iff.1 (hbits i (by omega))
    obtain ⟨b, hb⟩ := Line.upTo_succ (bt := bt) (n := n) (l := l) (before := before) hx
    have hat : f.middleOf bt (i + 1) (l + micros ((i + 1) * bt + bt / 2)) = true := by
      rw [middleOf_micros hf (by omega)]
      exact decide_eq_true rfl
    have hnext : (i + 1) * bt = i * bt + bt := Nat.succ_mul i bt
    rw [hb, upTo_next_middle hpos hbt hlevels hf hon hstill (by omega) (ih (by omega)),
      passMicrosecond_reading (n := c.setPhase (.reading f i (lowBits value i))) hon (hstill _ x (by omega) hx) rfl,
      if_pos hat, if_pos (show i < 8 by omega), hbit, withBit_lowBits]
    rfl

/-- The middle of the stop bit completes the byte. -/
theorem upTo_stop_bit (hphase : c.receiver.phase = .reading f 0 0)
    (hstart : n.upTo bt l before levels (bt / 2 + 1) = c)
    (hbits : ∀ i, i < 8 → (levels[(i + 1) * bt + bt / 2]?).map (·.2) = some (value.getLsbD i))
    (hstop : (levels[9 * bt + bt / 2]?).map (·.2) = some stop) :
    n.upTo bt l before levels (9 * bt + bt / 2 + 1) = c.completeByte value stop bt := by
  have hmiddle := middle_lt hpos (show 9 < 10 by omega)
  obtain ⟨x, hx, hbit⟩ := Option.map_eq_some_iff.1 hstop
  obtain ⟨b, hb⟩ := Line.upTo_succ (bt := bt) (n := n) (l := l) (before := before) hx
  have hat : f.middleOf bt (8 + 1) (l + micros (9 * bt + bt / 2)) = true := by
    rw [middleOf_micros hf (by omega)]
    exact decide_eq_true rfl
  have hread := upTo_next_middle hpos hbt hlevels hf hon hstill (by omega)
    (upTo_data_bits hpos hbt hlevels hf hon hstill (le_refl 8) hphase hstart hbits)
  rw [hb, hread, passMicrosecond_reading (n := c.setPhase (.reading f 8 (lowBits value 8))) hon
    (hstill _ x (by omega) hx) rfl, if_pos hat, if_neg (Nat.lt_irrefl 8), hbit, lowBits_all]
  rfl

/-- R26: half a bit after the middle of the stop bit the idle time restarts. -/
theorem passRun_byte (hphase : c.receiver.phase = .reading f 0 0)
    (hstart : n.upTo bt l before levels (bt / 2 + 1) = c)
    (hbits : ∀ i, i < 8 → (levels[(i + 1) * bt + bt / 2]?).map (·.2) = some (value.getLsbD i))
    (hstop : (levels[9 * bt + bt / 2]?).map (·.2) = some stop)
    (htail : ∀ k, 9 * bt + bt / 2 < k → k < 10 * bt → stop = true → (levels[k]?).map (·.2) = some true) :
    n.passRun bt l before levels = { c.completeByte value stop bt with stopLeft := 0 } := by
  have hmiddle := middle_lt hpos (show 9 < 10 by omega)
  have hend := Line.upTo_of_steps (n := n) (bt := bt) (l := l) (before := before) (levels := levels)
    (states := fun t => { c.completeByte value stop bt with stopLeft := 10 * bt - t }) (a := 9 * bt + bt / 2 + 1)
    (b := 10 * bt) (by omega) hlevels.ge ?start ?steps
  case start =>
    rw [upTo_stop_bit hpos hbt hlevels hf hon hstill hphase hstart hbits hstop]
    have hleft : 10 * bt - (9 * bt + bt / 2 + 1) = bt - bt / 2 - 1 := by omega
    rw [hleft]
    rfl
  case steps =>
    intro t x b hat htb hx
    have hleft : 10 * bt - t - 1 = 10 * bt - (t + 1) := by omega
    have hmore : 0 < 10 * bt - t := by omega
    have hquiet := hstill t x (by omega) hx
    cases stop with
    | true =>
      have hlevel : x.2 = true := by
        have hx' := htail t (by omega) htb rfl
        rw [hx] at hx'
        exact Option.some.inj hx'
      rw [passMicrosecond_searching_idle (n := { c.completeByte value true bt with stopLeft := 10 * bt - t }) hon hquiet
        rfl hlevel, Line.rest, if_pos hmore, ← hleft]
    | false =>
      rw [passMicrosecond_held (n := { c.completeByte value false bt with stopLeft := 10 * bt - t }) hon hquiet
        rfl, Line.awaitRelease, if_pos hmore, ← hleft]
  rw [Line.upTo_length hlevels, Nat.sub_self] at hend
  exact hend

end

/-! ### A fall until the middle of its start bit (R1, R26) -/

theorem iterate_rest_keeps (n : Line) (t : Nat) :
    (Line.rest^[t] n).receiver = n.receiver ∧ (Line.rest^[t] n).flight = n.flight ∧ (Line.rest^[t] n).mode = n.mode := by
  induction t with
  | zero => exact ⟨rfl, rfl, rfl⟩
  | succ t ih =>
    obtain ⟨hreceiver, hflight, hmode⟩ := ih
    rw [Function.iterate_succ_apply']
    exact ⟨(phase_rest _).trans hreceiver, (flight_rest _).trans hflight, (rest_sameAccess _).mode.trans hmode⟩

theorem iterate_rest_of_no_stop (h : n.stopLeft = 0) (t : Nat) : Line.rest^[t] n = { n with idle := n.idle + t } := by
  induction t with
  | zero => rfl
  | succ t ih => rw [Function.iterate_succ_apply', ih, Line.rest, if_neg (by simp [h]), Nat.add_assoc]

theorem restartIdle_iterate_rest (n : Line) (t : Nat) : (Line.rest^[t] n).restartIdle = n.restartIdle := by
  have hone (m : Line) : m.rest.restartIdle = m.restartIdle := by
    unfold Line.rest
    split <;> rfl
  induction t with
  | zero => rfl
  | succ t ih => rw [Function.iterate_succ_apply', hone, ih]

section
variable {f : Fall} (hbt : bt ≤ 100) (hlen : bt / 2 < levels.length) (hf : f.stampL = l) (hon : n.mode.onLine = true)
  (hphase : n.receiver.phase = .falling f)
  (hfollow : ∀ t x, t ≤ bt / 2 → levels[t]? = some x →
    (Line.rest^[t] n).followOwn bt ⟨x.1, l + micros t, (Line.rest^[t] n).idle⟩ = Line.rest^[t] n)
  (hecho : ∀ t x, t < bt / 2 → levels[t]? = some x →
    n.flight.map (fun f => f.compare bt (l + micros t) x.2) = n.flight)
include hbt hlen hf hon hphase hfollow hecho

theorem upTo_falling : n.upTo bt l before levels (bt / 2) = Line.rest^[bt / 2] n := by
  refine Line.upTo_of_steps (states := fun t => Line.rest^[t] n) (Nat.zero_le _) hlen.le rfl fun t x b _ ht hx => ?_
  obtain ⟨hreceiver, hflight, hmode⟩ := iterate_rest_keeps n t
  obtain ⟨-, hflight', -⟩ := iterate_rest_keeps n (t + 1)
  have hnot : f.middleOf bt 0 (l + micros t) = false := by
    rw [middleOf_micros hf (by omega)]
    exact decide_eq_false (by omega)
  rw [passMicrosecond_falling (f := f) (by rw [hmode]; exact hon) (by rw [hreceiver, hphase])
    (hfollow t x ht.le hx), hnot, if_neg Bool.false_ne_true, ← Function.iterate_succ_apply' Line.rest t n]
  exact compareEcho_of_same (by rw [hflight']; exact hecho t x ht hx)

theorem upTo_fall_middle {x : Time × Bool} (hx : levels[bt / 2]? = some x) :
    n.upTo bt l before levels (bt / 2 + 1) =
      (if x.2 then (Line.rest^[bt / 2 + 1] n).setPhase .searching
        else (Line.rest^[bt / 2 + 1] n).confirmStart f).compareEcho bt (l + micros (bt / 2)) x.2 := by
  obtain ⟨hreceiver, -, hmode⟩ := iterate_rest_keeps n (bt / 2)
  obtain ⟨b, hb⟩ := Line.upTo_succ (bt := bt) (n := n) (l := l) (before := before) hx
  have hat : f.middleOf bt 0 (l + micros (bt / 2)) = true := by
    rw [middleOf_micros hf (by omega), Nat.zero_mul, Nat.zero_add]
    exact decide_eq_true rfl
  rw [hb, upTo_falling hbt hlen hf hon hphase hfollow hecho,
    passMicrosecond_falling (f := f) (by rw [hmode]; exact hon) (by rw [hreceiver, hphase])
      (hfollow _ x le_rfl hx), if_pos hat, ← Function.iterate_succ_apply' Line.rest (bt / 2) n]

end

end

end Sys2Proof.Machine
end

section
/-! PROOFS. The receiver between own frames: bytes, glitches, start bits and the idle time (R1, R2, R26). -/

namespace Sys2Proof.Machine

variable {n : Line} {bt : Nat} {l st : Time} {levels : List (Time × Bool)}

theorem confirmStart_of_no_flight (h : n.flight = none) (f : Fall) :
    n.confirmStart f = { n with idle := f.idle }.setPhase (.reading f 0 0) := by
  simp only [Line.confirmStart, h]

theorem confirmStart_of_flight {g : Flight} (h : n.flight = some g) (f : Fall) :
    n.confirmStart f = n.restartIdle.setPhase (.reading { f with idle := 0 } 0 0) := by
  simp only [Line.confirmStart, h]

theorem still_of_no_flight {m : Line} (h : m.flight = none) (bt : Nat) (l : Time) (level : Bool) :
    Still m.flight bt l level := by
  rw [h]
  exact still_none

/-- The line at a fall that is not confirmed. -/
def Line.fallen (n : Line) (st l : Time) : Line := n.setPhase (.falling ⟨st, l, n.idle⟩)

section
variable (hon : n.mode.onLine = true)
include hon

/-- R1: the microsecond in which the line falls is one of a fall that is not confirmed. -/
theorem passMicrosecond_fall (hphase : n.receiver.phase = .searching) :
    n.passMicrosecond bt st l true false =
      (n.fallen st l).passMicrosecond bt st l true false := by
  have hon' : (n.fallen st l).mode.onLine = true := hon
  simp only [Line.passMicrosecond, hon, hon', Line.noticeFall, hphase, Bool.not_false, Bool.and_true, if_true]
  rfl

theorem passRun_fall (hphase : n.receiver.phase = .searching) (hst : (levels[0]?).map (·.1) = some st)
    (hfall : (levels[0]?).map (·.2) = some false) :
    n.passRun bt l true levels = (n.fallen st l).passRun bt l true levels := by
  cases levels with
  | nil => cases hst
  | cons x rest =>
    obtain ⟨st', level⟩ := x
    obtain rfl := Option.some.inj hst
    obtain rfl := Option.some.inj hfall
    rw [Line.passRun, Line.passRun, passMicrosecond_fall hon hphase]

section
variable (hflight : n.flight = none) (hbt : bt ≤ 100) (hlen : bt / 2 < levels.length) (hphase : n.receiver.phase = .searching)
  (hstopLeft : n.stopLeft = 0)
include hflight hbt hlen hphase hstopLeft

/-- The middle of the start bit, at which the idle time has grown on since the fall. -/
theorem upTo_start_middle {before level : Bool} (hx : (levels[bt / 2]?).map (·.2) = some level) :
    (n.fallen st l).upTo bt l before levels (bt / 2 + 1) =
      if level then { n with idle := n.idle + (bt / 2 + 1) }
      else { n with receiver := { n.receiver with phase := .reading ⟨st, l, n.idle⟩ 0 0 } } := by
  obtain ⟨x, hget, rfl⟩ := Option.map_eq_some_iff.1 hx
  have hrest (t : Nat) : Line.rest^[t] (n.fallen st l) =
      { n.fallen st l with idle := n.idle + t } :=
    iterate_rest_of_no_stop (n := n.fallen st l) hstopLeft t
  have hnone (t : Nat) : (Line.rest^[t] (n.fallen st l)).flight = none := by
    rw [hrest]
    exact hflight
  rw [upTo_fall_middle (n := n.fallen st l) (f := ⟨st, l, n.idle⟩) hbt hlen rfl hon rfl
    (fun t x _ _ => followOwn_of_quiet (still_of_no_flight (hnone t) _ _ true).quiet)
    (fun t x _ _ => (still_of_no_flight (m := n.fallen st l) hflight _ _ _).echo) hget, hrest]
  cases x.2 with
  | true =>
    have hsame : ({ n.fallen st l with idle := n.idle + (bt / 2 + 1) } : Line).setPhase
        .searching = { n with idle := n.idle + (bt / 2 + 1) } := by
      rw [← hphase]
      rfl
    rw [if_pos rfl, if_pos rfl, hsame, compareEcho_of_same]
    exact (still_of_no_flight (m := n) hflight _ _ _).echo
  | false =>
    have hconfirm : ({ n.fallen st l with idle := n.idle + (bt / 2 + 1) } : Line).confirmStart
        ⟨st, l, n.idle⟩ = n.setPhase (.reading ⟨st, l, n.idle⟩ 0 0) :=
      confirmStart_of_no_flight (n := { n.fallen st l with idle := n.idle + (bt / 2 + 1) }) hflight ⟨st, l, n.idle⟩
    rw [if_neg Bool.false_ne_true, if_neg Bool.false_ne_true, hconfirm, compareEcho_of_same]
    · rfl
    · exact (still_of_no_flight (m := n.setPhase _) hflight _ _ _).echo

end

end

/-- Settles O22: a byte, a glitch, a start bit, and the receiver at rest and past a framing error. -/
theorem receiverReadsBytes : Obligations.ReceiverReadsBytes := by
  intro n bt l levels heard hpos hbt hmode hflight
  have hon : n.mode.onLine = true := (Mode.onLine_iff _).2 hmode
  have hstill (l : Time) (level : Bool) : Still n.flight bt l level := still_of_no_flight hflight bt l level
  refine ⟨fun hphase hstopLeft => ⟨fun value stop hlen hfall hconfirm hbits hstop htail hheard => ?_,
    fun hlen hfall => ⟨fun hglitch => ?_, fun st hst hconfirm => ?_⟩, fun st before => ⟨?_, ?_⟩⟩,
    fun rested hphase st before level => ?_⟩
  · obtain ⟨⟨st, level⟩, hfirst, hlevel⟩ := Option.map_eq_some_iff.1 hfall
    have hst : (levels[0]?).map (·.1) = some st := by rw [hfirst]; rfl
    have hstart := upTo_start_middle (st := st) (l := l) (before := true) hon hflight hbt (by omega) hphase hstopLeft hconfirm
    rw [if_neg Bool.false_ne_true] at hstart
    rw [passRun_fall hon hphase hst hfall,
      passRun_byte (f := ⟨st, l, n.idle⟩)
        (c := { n with receiver := { n.receiver with phase := .reading ⟨st, l, n.idle⟩ 0 0 } }) hpos hbt hlen rfl hon
        (fun t x _ _ => hstill _ _) rfl hstart hbits hstop htail,
      hheard]
    have hne : (n.lineState != .idle) = decide (n.lineState ≠ .idle) := by rw [decide_not, ← beq_eq_decide, bne]
    rw [← hne]
    rfl
  · obtain ⟨⟨st, level⟩, hfirst, hlevel⟩ := Option.map_eq_some_iff.1 hfall
    have hst : (levels[0]?).map (·.1) = some st := by rw [hfirst]; rfl
    rw [passRun_fall hon hphase hst hfall, ← Line.upTo_length hlen,
      upTo_start_middle hon hflight hbt (by omega) hphase hstopLeft hglitch, if_pos rfl]
  · rw [passRun_fall hon hphase hst hfall, ← Line.upTo_length hlen,
      upTo_start_middle hon hflight hbt (by omega) hphase hstopLeft hconfirm, if_neg Bool.false_ne_true]
  · rw [passMicrosecond_searching_idle hon (hstill _ _) hphase rfl, Line.rest, if_neg (by omega)]
  · rw [passMicrosecond_searching_active hon (hstill _ _) hphase]
    rfl
  · rw [passMicrosecond_held hon (hstill _ _) hphase]
    rfl

end Sys2Proof.Machine
end

section
/-! PROOFS. One increment of L, and the receiver in an own frame (R14, R30, R39, R40, R42, R72). -/

namespace Sys2Proof.Machine

/-! ### One increment (R39, R40, R42, R72, R185) -/

section
variable {s : State} {inputs : BitVec 16} {level : Bool}

theorem exec_increment_of_held (h : s.inReset = true) : exec (.localCountIncrement inputs level) s = .next s := if_pos h

theorem exec_increment_of_released (h : s.inReset = false) :
    exec (.localCountIncrement inputs level) s = .next (s.settle.increment inputs level) :=
  if_neg (by rw [h]; exact Bool.false_ne_true)

theorem Clock.increment_eq (c : Clock) :
    c.increment =
      { c with
        l := c.l + 1
        st := if 0 < c.debt ∧ (c.l + 1).toNat % 2 = 1 then c.st else c.st + 1
        debt := if 0 < c.debt ∧ (c.l + 1).toNat % 2 = 1 then c.debt - 1 else c.debt
        uncorrected := none } := by
  have hodd : (c.l + 1).getLsbD 0 = true ↔ (c.l + 1).toNat % 2 = 1 := by
    rw [BitVec.getLsbD, Nat.testBit_zero, decide_eq_true_iff]
  simp only [Clock.increment, hodd]
  split <;> rfl

theorem Capture.firstSample_eq (c : Capture) :
    c.firstSample inputs = { c with levels := if c.sampled then c.levels else inputs, sampled := true } := by
  unfold Capture.firstSample
  split
  · next h =>
    rw [← h]
  · rfl

theorem State.fallStamp_cases {b : Time} (h : s.clock.uncorrected = some b) :
    s.fallStamp = b ∨ s.fallStamp = s.clock.st := by
  unfold State.fallStamp
  rw [h]
  dsimp only
  split
  · exact .inl rfl
  · exact .inr rfl

end

/-! ### The microseconds of a driven byte (R14, R30) -/

section
variable {n : Line} {f : Flight} {bt k t : Nat} {l st : Time} {b : Byte}

theorem followOwn_of_begins {fall : Fall} (hflight : n.flight = some f) (h : f.byteBegins bt fall.stampL = true) :
    n.followOwn bt fall = n.setPhase (.falling fall) := by
  simp only [Line.followOwn, hflight, h, if_true]

theorem setPhase_noticeFall (fell : Bool) (fall : Fall) (p : Phase) :
    (n.noticeFall fell fall).setPhase p = n.setPhase p := by
  unfold Line.noticeFall
  split
  · split <;> rfl
  all_goals rfl

theorem followOwn_noticeFall {fall : Fall} (fell : Bool) (hflight : n.flight = some f)
    (h : f.byteBegins bt fall.stampL = true) : (n.noticeFall fell fall).followOwn bt fall = n.setPhase (.falling fall) := by
  have hflight' : (n.noticeFall fell fall).flight = some f := (flight_noticeFall n fell fall).trans hflight
  rw [followOwn_of_begins hflight' h, setPhase_noticeFall]

/-- R14: whatever the receiver did before, a driven byte begins with a fall. -/
theorem passMicrosecond_own_start {before level : Bool} (hon : n.mode.onLine = true) (hflight : n.flight = some f)
    (h : f.byteBegins bt l = true) :
    n.passMicrosecond bt st l before level = (n.fallen st l).passMicrosecond bt st l before level := by
  have hfollow := followOwn_noticeFall (fall := ⟨st, l, n.idle⟩) (before && !level) hflight h
  have hfollow' := followOwn_noticeFall (n := n.fallen st l) (fall := ⟨st, l, n.idle⟩) (before && !level) hflight h
  have hidle : (n.fallen st l).idle = n.idle := rfl
  have hon' : (n.fallen st l).mode.onLine = true := hon
  rw [Line.passMicrosecond, Line.passMicrosecond, if_pos hon, if_pos hon', hfollow, hidle, hfollow']
  rfl

theorem passRun_own_start {before : Bool} {levels : List (Time × Bool)} (hon : n.mode.onLine = true)
    (hflight : n.flight = some f) (h : f.byteBegins bt l = true) (hst : (levels[0]?).map (·.1) = some st) :
    n.passRun bt l before levels = (n.fallen st l).passRun bt l before levels := by
  cases levels with
  | nil => cases hst
  | cons x rest =>
    obtain ⟨st', level⟩ := x
    obtain rfl : st' = st := Option.some.inj hst
    have hfirst : n.passMicrosecond bt st' l before level = (n.fallen st' l).passMicrosecond bt st' l before level :=
      passMicrosecond_own_start hon hflight h
    exact congrArg (fun m => m.passRun bt (l + 1) level rest) hfirst

theorem byteBegins_first (hpos : 1 ≤ bt) (hbyte : f.frame.toBytes[k]? = some b)
    (hl : (l - f.startL).toNat = 10 * bt * k) (hnone : f.mismatch = none) : f.byteBegins bt l = true := by
  obtain ⟨hk, -⟩ := List.getElem?_eq_some_iff.1 hbyte
  rw [Flight.byteBegins, hl, hnone, Nat.mul_mod_right, Nat.mul_div_cancel_left k (by omega), decide_eq_true hk]
  rfl

section
variable (hpos : 1 ≤ bt) (hbt : bt ≤ 100) (hlength : f.frame.toBytes.length ≤ 110)
  (hbyte : f.frame.toBytes[k]? = some b) (hl : (l - f.startL).toNat = 10 * bt * k)
include hpos hbt hlength hbyte hl

theorem toNat_since_start (ht : t < 10 * bt) : (l + micros t - f.startL).toNat = 10 * bt * k + t := by
  obtain ⟨hk, -⟩ := List.getElem?_eq_some_iff.1 hbyte
  have hle : 10 * bt * k ≤ 1000 * 110 := Nat.mul_le_mul (by omega) (by omega)
  rw [micros]
  generalize 10 * bt * k = start at hl hle
  bv_omega

theorem byteBegins_later (h0 : 0 < t) (ht : t < 10 * bt) : f.byteBegins bt (l + micros t) = false := by
  have hrest : (10 * bt * k + t) % (10 * bt) = t := by rw [Nat.mul_add_mod, Nat.mod_eq_of_lt ht]
  rw [Flight.byteBegins, toNat_since_start hpos hbt hlength hbyte hl ht, hrest, beq_eq_false_iff_ne.2 (by omega),
    Bool.and_false, Bool.false_and]

/-- The middle of a driven bit in the microseconds of its byte. -/
theorem middle_in_byte {bit : Nat} (h : (l + micros t - f.startL).toNat = bit * bt + bt / 2) (ht : t < 10 * bt) :
    bit = 10 * k + t / bt ∧ t = t / bt * bt + bt / 2 := by
  have hhalf : bt / 2 < bt := by omega
  rw [toNat_since_start hpos hbt hlength hbyte hl ht] at h
  have hsum : 10 * bt * k + t = bt * (10 * k) + t := by rw [Nat.mul_comm 10 bt, Nat.mul_assoc]
  rw [hsum, Nat.mul_comm bit bt] at h
  have hbit := congrArg (· / bt) h
  have hrest := congrArg (· % bt) h
  simp only [Nat.mul_add_div hpos, Nat.div_eq_of_lt hhalf, Nat.add_zero] at hbit
  simp only [Nat.mul_add_mod, Nat.mod_eq_of_lt hhalf] at hrest
  refine ⟨hbit.symm, ?_⟩
  rw [← hrest, Nat.mul_comm]
  exact (Nat.div_add_mod t bt).symm

/-- Before the middle of the start bit nothing is compared. -/
theorem compare_before_middle {level : Bool} (ht : t < bt / 2) : f.compare bt (l + micros t) level = f := by
  refine Flight.compare_of_same fun bit c hmiddle hc => ?_
  obtain ⟨-, hat⟩ := middle_in_byte hpos hbt hlength hbyte hl hmiddle (by omega)
  rw [Nat.div_eq_of_lt (show t < bt by omega)] at hat
  omega

/-- R30: a byte whose bits read back as driven in their middles makes no mismatch. -/
theorem compare_in_byte {levels : List (Time × Bool)} (hstart : (levels[bt / 2]?).map (·.2) = some false)
    (hbits : ∀ i, i < 8 → (levels[(i + 1) * bt + bt / 2]?).map (·.2) = some (b.getLsbD i))
    (hstop : (levels[9 * bt + bt / 2]?).map (·.2) = some true) {x : Time × Bool} (hx : levels[t]? = some x)
    (ht : t < 10 * bt) : f.compare bt (l + micros t) x.2 = f := by
  refine Flight.compare_of_same fun bit c hmiddle hc => ?_
  obtain ⟨rfl, hat⟩ := middle_in_byte hpos hbt hlength hbyte hl hmiddle ht
  have hi : t / bt < 10 := Nat.div_lt_of_lt_mul (by rw [Nat.mul_comm]; exact ht)
  generalize t / bt = i at hat hi hc
  have hdiv : (10 * k + i) / 10 = k := by omega
  have hmod : (10 * k + i) % 10 = i := by omega
  rw [lineBit_of_byte (hdiv ▸ hbyte), hmod]
  have hlevel : (levels[i * bt + bt / 2]?).map (·.2) = some x.2 := by rw [← hat, hx]; rfl
  split
  · next h0 =>
    subst h0
    rw [Nat.zero_mul, Nat.zero_add, hstart] at hlevel
    exact (Option.some.inj hlevel).symm
  · split
    · next h9 =>
      subst h9
      rw [hstop] at hlevel
      exact (Option.some.inj hlevel).symm
    · have hdata := hbits (i - 1) (by omega)
      rw [Nat.sub_add_cancel (by omega), hlevel] at hdata
      exact Option.some.inj hdata

end

end

end Sys2Proof.Machine
end

section
/-! PROOFS. A byte of an own frame, its start bit, and the increments of L (R14, R26, R30, R40). -/

namespace Sys2Proof.Machine

theorem completeByte_of_open {n : Line} (h : n.lineState ≠ .idle) (value : Byte) (bt : Nat) :
    n.completeByte value true bt =
      { n.restartIdle with
        stopLeft := bt - bt / 2 - 1
        receiver := { n.receiver with phase := .searching, bytes := n.receiver.bytes ++ [value] } } := by
  rw [Line.completeByte, if_neg h, Bool.not_true, Bool.false_and, Bool.or_false]
  rfl

section
variable {n : Line} {f : Flight} {bt k : Nat} {l st : Time} {b : Byte} {before : Bool} {levels : List (Time × Bool)}
  (hpos : 1 ≤ bt) (hbt : bt ≤ 100) (hon : n.mode.onLine = true) (hflight : n.flight = some f)
  (hnone : f.mismatch = none) (hlength : f.frame.toBytes.length ≤ 110) (hbyte : f.frame.toBytes[k]? = some b)
  (hl : (l - f.startL).toNat = 10 * bt * k)
include hpos hbt hon hflight hnone hlength hbyte hl

/-- R14: from the driven start bit on the receiver follows the line, until the middle of the bit. -/
theorem upTo_own_middle (hlen : bt / 2 < levels.length) (hst : (levels[0]?).map (·.1) = some st) {x : Time × Bool}
    (hx : levels[bt / 2]? = some x) :
    (n.fallen st l).upTo bt l before levels (bt / 2 + 1) =
      (if x.2 then (Line.rest^[bt / 2 + 1] (n.fallen st l)).setPhase .searching
        else n.restartIdle.setPhase (.reading ⟨st, l, 0⟩ 0 0)).compareEcho bt (l + micros (bt / 2)) x.2 := by
  have hflight' : (n.fallen st l).flight = some f := hflight
  have hconfirm : (Line.rest^[bt / 2 + 1] (n.fallen st l)).confirmStart ⟨st, l, n.idle⟩ =
      n.restartIdle.setPhase (.reading ⟨st, l, 0⟩ 0 0) := by
    obtain ⟨-, hkept, -⟩ := iterate_rest_keeps (n.fallen st l) (bt / 2 + 1)
    rw [confirmStart_of_flight (hkept.trans hflight'), restartIdle_iterate_rest]
    rfl
  rw [upTo_fall_middle (n := n.fallen st l) (l := l) (f := ⟨st, l, n.idle⟩) hbt hlen rfl hon rfl ?follow ?echo hx, hconfirm]
  case follow =>
    intro t y ht hy
    cases t with
    | zero =>
      have hfirst : y.1 = st := by
        rw [hy] at hst
        exact Option.some.inj hst
      have hbegins : f.byteBegins bt (l + micros 0) = true := by
        rw [micros, BitVec.add_zero]
        exact byteBegins_first hpos hbyte hl hnone
      have hfollow := followOwn_of_begins (n := n.fallen st l) (fall := ⟨y.1, l + micros 0, n.idle⟩) hflight hbegins
      rw [hfirst, show l + micros 0 = l from BitVec.add_zero l] at hfollow
      rw [hfirst, show l + micros 0 = l from BitVec.add_zero l]
      exact hfollow
    | succ t =>
      obtain ⟨-, hkept, -⟩ := iterate_rest_keeps (n.fallen st l) (t + 1)
      refine followOwn_of_quiet fun g hg => ?_
      obtain rfl : f = g := Option.some.inj ((hkept.trans hflight').symm.trans hg)
      exact byteBegins_later hpos hbt hlength hbyte hl (Nat.succ_pos t) (by omega)
  case echo =>
    intro t y ht hy
    rw [hflight', Option.map_some, compare_before_middle hpos hbt hlength hbyte hl ht]

/-- R14: the start bit of a driven byte, read idle or active. -/
theorem passRun_own_start_bit (hlen : levels.length = bt / 2 + 1) (hst : (levels[0]?).map (·.1) = some st) :
    ((levels[bt / 2]?).map (·.2) = some true →
      (n.passRun bt l before levels).receiver = { n.receiver with phase := .searching }) ∧
    ((levels[bt / 2]?).map (·.2) = some false →
      (n.passRun bt l before levels).receiver = { n.receiver with phase := .reading ⟨st, l, 0⟩ 0 0 } ∧
        (n.passRun bt l before levels).idle = 0) := by
  have hbegins := byteBegins_first hpos hbyte hl hnone
  have hrun : n.passRun bt l before levels = (n.fallen st l).upTo bt l before levels (bt / 2 + 1) :=
    (passRun_own_start hon hflight hbegins hst).trans (Line.upTo_length hlen).symm
  rw [hrun]
  refine ⟨fun hidle => ?_, fun hactive => ?_⟩
  · obtain ⟨x, hx, hlevel⟩ := Option.map_eq_some_iff.1 hidle
    obtain ⟨hreceiver, -, -⟩ := iterate_rest_keeps (n.fallen st l) (bt / 2 + 1)
    rw [upTo_own_middle hpos hbt hon hflight hnone hlength hbyte hl (by omega) hst hx, if_pos hlevel]
    exact congrArg (fun r : Receiver => { r with phase := .searching }) hreceiver
  · obtain ⟨x, hx, hlevel⟩ := Option.map_eq_some_iff.1 hactive
    have hnot : ¬x.2 = true := by rw [hlevel]; exact Bool.false_ne_true
    rw [upTo_own_middle hpos hbt hon hflight hnone hlength hbyte hl (by omega) hst hx, if_neg hnot]
    exact ⟨rfl, rfl⟩

/-- R14: a byte driven and read back joins the bytes read. -/
theorem passRun_own_byte (hstate : n.lineState = .transmitting) (hlen : levels.length = 10 * bt)
    (hstart : (levels[bt / 2]?).map (·.2) = some false)
    (hbits : ∀ i, i < 8 → (levels[(i + 1) * bt + bt / 2]?).map (·.2) = some (b.getLsbD i))
    (hidle : ∀ i, 9 * bt + bt / 2 ≤ i → i < 10 * bt → (levels[i]?).map (·.2) = some true) :
    n.passRun bt l before levels =
      { n with
        idle := 0, stopLeft := 0, rotations := 0, opportunityFloor := 0
        receiver := { n.receiver with phase := .searching, bytes := n.receiver.bytes ++ [b] } } := by
  have hstop := hidle (9 * bt + bt / 2) (le_refl _) (by omega)
  have hbegins := byteBegins_first hpos hbyte hl hnone
  have hecho {t : Nat} {x : Time × Bool} (hx : levels[t]? = some x) (ht : t < 10 * bt) :
      f.compare bt (l + micros t) x.2 = f :=
    compare_in_byte hpos hbt hlength hbyte hl hstart hbits hstop hx ht
  obtain ⟨x, hx, hlevel⟩ := Option.map_eq_some_iff.1 hstart
  have hst : (levels[0]?).map (·.1) = some levels[0].1 := by
    rw [List.getElem?_eq_getElem (by omega)]
    rfl
  have hmiddle : (n.fallen levels[0].1 l).upTo bt l before levels (bt / 2 + 1) =
      n.restartIdle.setPhase (.reading ⟨levels[0].1, l, 0⟩ 0 0) := by
    have hnot : ¬x.2 = true := by rw [hlevel]; exact Bool.false_ne_true
    rw [upTo_own_middle hpos hbt hon hflight hnone hlength hbyte hl (by omega) hst hx, if_neg hnot]
    refine compareEcho_of_same ?_
    change n.flight.map _ = n.flight
    rw [hflight, Option.map_some, hecho hx (by omega)]
  rw [passRun_own_start hon hflight hbegins hst,
    passRun_byte (f := ⟨levels[0].1, l, 0⟩) (c := n.restartIdle.setPhase (.reading ⟨levels[0].1, l, 0⟩ 0 0)) hpos hbt
      hlen rfl hon ?still rfl hmiddle hbits hstop fun i hi hlt _ => hidle i hi.le hlt]
  case still =>
    intro t y ht hy
    obtain ⟨hlt, -⟩ := List.getElem?_eq_some_iff.1 hy
    change Still n.flight bt (l + micros t) y.2
    rw [hflight]
    refine ⟨fun g hg => ?_, by rw [Option.map_some, hecho hy (by omega)]⟩
    obtain rfl := Option.some.inj hg
    exact byteBegins_later hpos hbt hlength hbyte hl (by omega) (by omega)
  have hopen : (n.restartIdle.setPhase (.reading ⟨levels[0].1, l, 0⟩ 0 0)).lineState ≠ .idle := by
    change n.lineState ≠ .idle
    rw [hstate]
    nofun
  rw [completeByte_of_open hopen]
  rfl

end

theorem compareEcho_of_flight {n : Line} {f : Flight} (h : n.flight = some f) (bt : Nat) (l : Time) (level : Bool) :
    n.compareEcho bt l level = { n with flight := some (f.compare bt l level) } := by
  rw [Line.compareEcho, h, Option.map_some]

/-- R1: a byte under way in an own frame, in which no byte begins, is read as between own frames. -/
theorem passMicrosecond_own_reading {n : Line} {f : Flight} {bt : Nat} {l st : Time} {before level : Bool} {fall : Fall}
    {bits : Nat} {value : Byte} (hon : n.mode.onLine = true) (hflight : n.flight = some f)
    (hphase : n.receiver.phase = .reading fall bits value) (hquiet : f.byteBegins bt l = false) :
    n.passMicrosecond bt st l before level =
      { ({ n with flight := none } : Line).passMicrosecond bt st l before level with
        flight := some (f.compare bt l level) } := by
  have hfollow : n.followOwn bt ⟨st, l, n.idle⟩ = n := followOwn_of_quiet fun g hg => by
    obtain rfl := Option.some.inj (hflight.symm.trans hg)
    exact hquiet
  have hpass : n.passIdle level = n := by simp only [Line.passIdle, hphase]
  rw [passMicrosecond_eq hon (noticeFall_of_waiting _ _ (by simp [hphase])) hfollow, hpass,
    passMicrosecond_reading (n := { n with flight := none }) hon still_none hphase]
  rw [compareEcho_of_flight ((flight_sample n bt l level).trans hflight)]
  simp only [Line.sample, hphase]
  split
  · split <;> rfl
  · rfl

theorem byteBegins_of_quiet {f : Flight} {bt : Nat} {l : Time}
    (h : f.mismatch ≠ none ∨ (l - f.startL).toNat % (10 * bt) ≠ 0) : f.byteBegins bt l = false := by
  rcases h with hmismatch | hwithin
  · obtain ⟨bit, hbit⟩ := Option.ne_none_iff_exists'.1 hmismatch
    rw [Flight.byteBegins, hbit]
    rfl
  · rw [Flight.byteBegins, beq_eq_false_iff_ne.2 hwithin, Bool.and_false, Bool.false_and]

/-- Settles O34: the increment by the mode and RST, and the receiver in an own frame. -/
theorem incrementMovesTime : Obligations.IncrementMovesTime := by
  refine ⟨fun s inputs level => ⟨exec_increment_of_held, fun hreleased => ?_⟩, fun n bt l before hpos hbt hmode => ?_⟩
  · have honly := settle_onlyJournal s
    have hstamp : s.settle.fallStamp = s.fallStamp := by
      unfold State.fallStamp State.st State.l
      rw [honly.clock]
    refine ⟨s.settle, s.fallStamp, rfl, honly, settle_of_not_working s, fallStamp_of_none s,
      fun b hb => State.fallStamp_cases hb, ?_, fun hoff => passMicrosecond_off_line ?_⟩
    · rw [exec_increment_of_released hreleased, State.increment, hstamp, Clock.increment_eq, Capture.firstSample_eq,
        honly.clock, honly.line, honly.setup, honly.capture]
      have hdata : s.settle.receiveData = s.receiveData := honly.receiveData
      have hnow : s.settle.l = s.l := congrArg Clock.l honly.clock
      rw [hdata, hnow]
    · rcases hoff with hoff | hoff
      · exact (congrArg Mode.onLine hoff : s.line.mode.onLine = false)
      · exact (congrArg Mode.onLine hoff : s.line.mode.onLine = false)
  · have hon : n.mode.onLine = true := (Mode.onLine_iff _).2 hmode
    refine ⟨fun st level => ?_, fun f hflight => ⟨fun k b hnone hlength hbyte hl =>
      ⟨fun levels hstate hlen hstart hbits hidle => ?_, fun levels st hlen hst => ?_⟩,
      fun fall bits value hphase hquiet st level => ?_⟩⟩
    · rw [flight_passMicrosecond, if_pos hon]
    · exact passRun_own_byte hpos hbt hon hflight hnone hlength hbyte hl hstate hlen hstart hbits hidle
    · exact passRun_own_start_bit hpos hbt hon hflight hnone hlength hbyte hl hlen hst
    · exact passMicrosecond_own_reading hon hflight hphase (byteBegins_of_quiet hquiet)

end Sys2Proof.Machine
end
